-- ==== Sys2Proof/Word.lean ====
section
/-!
DEFINITION. The words that the manual treats as bits: the 10-bit words of a link (samples and packet
words), the bytes of a payload, the 16-bit field numbers and tags. Everything else of the model is a
number, a name or a set.
-/

namespace Sys2Proof

/-- A 10-bit word of a serial link: a sample of a line, or a word of a packet (00 Samples, 11.1). -/
abbrev LinkWord := BitVec 10

/-- A byte of a packet's payload (R182). -/
abbrev Byte := BitVec 8

/-- A field number, 0 to 65535; it wraps (R1, 00 Field numbers and due fields). -/
abbrev FieldNo := BitVec 16

/-- The tag of a command, a number of the panel's choosing (R25). -/
abbrev Tag := BitVec 16

/-- The parity of a field: `false` is 0, the first field of a frame, `true` is 1 (00 Picture geometry). -/
abbrev Parity := Bool

/-- One received line of a lane: its samples in the order the line carries them (R185). -/
abbrev Line := List LinkWord

end Sys2Proof
end

