-- ==== Sys2Proof/Syntax.lean ====
section
/-!
DEFINITION. The commands and events of the ZE-24: the names and records their operands are made of,
the panel commands of R27 (`Command`), and `Instr`, one constructor for each row of
spec/opcode_table.json.
-/

namespace Sys2Proof

/-- The picture formats of the part (00 Picture geometry, R8). -/
inductive Format where
  | interlaced1080 | progressive1080 | uhd2160
deriving DecidableEq, Repr

/-- The style of a transition (R76). -/
inductive Style where
  | mix | wipe
deriving DecidableEq, Repr

/-- The two matte generators (R76, R160). -/
inductive Matte where
  | matte1 | matte2
deriving DecidableEq, Repr

/-- The internal source that stands in for a lane (chapter 1, lane record). -/
inductive Substitute where
  | black | matte1 | matte2
deriving DecidableEq, Repr

/-- The two mix/effects banks. -/
inductive Me where
  | me1 | me2
deriving DecidableEq, Repr

/-- The five transition engines, numbered 0 to 4 in this order (00 Engines and keyers). -/
inductive EngineId where
  | me1 | me2 | dsk1 | dsk2 | ftb
deriving DecidableEq, Repr

/-- A set of engines: member n is the engine numbered n (00 Engines and keyers, R183). -/
abbrev EngineSet := BitVec 5

/-- A set of lanes as RESEEK carries it: lanes 1 to 25 are members 1 to 25 (11.4). -/
abbrev LaneSet := BitVec 32

/-- A set of condition kinds, member n the kind of code n (11.3). -/
abbrev KindSet := BitVec 11

/-- A next selection: a subset of {BKGD, K1, K2, K3} (R77). -/
structure NextSel where
  bkgd : Bool
  k1 : Bool
  k2 : Bool
  k3 : Bool
deriving DecidableEq, Repr

/-- The seven next settings of an M/E engine; DSK1, DSK2 and FTB use style and rate (R76). -/
structure NextSettings where
  style : Style
  rate : Nat
  shape : Nat
  border : Nat
  softness : Nat
  matte : Matte
  reverse : Bool
deriving DecidableEq, Repr

/-- How a keyer derives its coefficient (R124, R125). -/
inductive KeyType where
  | luma | linear
deriving DecidableEq, Repr

/-- The eight settings of a keyer (R122); `maskShape` is `none` for NONE. -/
structure KeySettings where
  type : KeyType
  clip : Nat
  gain : Nat
  invert : Bool
  curve : Nat
  maskShape : Option Nat
  maskSize : Nat
  maskInvert : Bool
deriving DecidableEq, Repr

/-- A colour of a matte: Y, Cb, Cr (R160). -/
structure Colour where
  y : Nat
  cb : Nat
  cr : Nat
deriving DecidableEq, Repr

/-- The kinds of a shape record (R41). -/
inductive ShapeKind where
  | horizontal | vertical | diagonal | box | diamond
deriving DecidableEq, Repr

/-- A shape record: kind, centre, aspect in sixteenths (R41). -/
structure ShapeRecord where
  kind : ShapeKind
  cu : Nat
  cv : Nat
  aspect : Nat
deriving DecidableEq, Repr

/-- A source record (R47). -/
structure SourceRecord where
  enabled : Bool
  legalise : Bool
  exempt : Bool
deriving DecidableEq, Repr

/-- The four settings of a lane (R18). -/
structure LaneSettings where
  substitute : Substitute
  window : Nat
  limit : Nat
  swap : Bool
deriving DecidableEq, Repr

/-- A set of table kinds, as COMMIT names it (R51). -/
structure TableSet where
  shapes : Bool
  curves : Bool
  sources : Bool
deriving DecidableEq, Repr

/-- The points MON may carry (R150). -/
inductive MonPoint where
  | source (n : Nat)
  | pgm | clean | pvw | me1 | me1LookAhead
deriving DecidableEq, Repr

/-- The points the path checker may watch (R165). -/
inductive CheckPoint where
  | pgm | clean | pvw | me1 | mon
  | lane (n : Nat)
deriving DecidableEq, Repr

/-- How the checker's counters pass 65535 (R168). -/
inductive CheckMode where
  | saturate | wrap
deriving DecidableEq, Repr

/-- The eleven condition kinds, in the priority order of R178 and the code order of 11.3. -/
inductive ConditionKind where
  | refLost | laneDown | laneErrors | laneFormat | laneUntimed | laneSlip
  | controlCheck | controlOverrun | queueHold | checkerError | noticeOverflow
deriving DecidableEq, Repr

/-- The enables of the three report packets (R180). -/
structure Enables where
  status : Bool
  tally : Bool
  notices : Bool
deriving DecidableEq, Repr

/-- Why the Timing Unit enters HOLDOVER (R6). -/
inductive HoldoverCause where
  | silence | incorrectFields
deriving DecidableEq, Repr

/-- The commands a panel sends, with the parameters of R27. A bypass source of `none` is OFF. -/
inductive Command where
  | select (bus source : Nat)
  | setNext (me : Me) (sel : NextSel)
  | setTransition (engine : EngineId) (settings : NextSettings)
  | take (engines : EngineSet)
  | cut (engines : EngineSet)
  | hold (engines : EngineSet)
  | resume (engines : EngineSet)
  | release (engines : EngineSet)
  | lever (me : Me) (position : Nat)
  | force (engine : EngineId) (value : Nat)
  | setKey (keyer : Nat) (settings : KeySettings)
  | setMatte (matte : Matte) (colour : Colour)
  | setLane (lane : Nat) (settings : LaneSettings)
  | reseek (lanes : LaneSet)
  | setFormat (format : Format)
  | loadShape (shape : Nat) (record : ShapeRecord)
  | loadCurve (curve first : Nat) (points : List Nat)
  | loadSource (source : Nat) (record : SourceRecord)
  | commit (kinds : TableSet)
  | setMonitor (point : MonPoint)
  | checkerStart (point : CheckPoint) (mode : CheckMode)
  | checkerStop
  | snapshotKeep
  | snapshotClear
  | clearConditionsAll
  | clearConditionsOne (kind : ConditionKind) (subject : Nat)
  | setReports (enables : Enables) (mask : KindSet)
  | purgeAll
  | purgeTag (tag : Tag)
  | bypass (source : Option Nat)
  | engineReset
deriving DecidableEq, Repr

/-- One constructor for each row of spec/opcode_table.json. The panel commands carry the tag of their
header (R25). `fieldPulse` carries the clock ticks since the last clocked event, the line pulses of the
reference since the last field pulse and the parity of the field the pulse opens (log 5, R2);
`laneFieldStart` the whole line periods since the output field in progress began (log 12, R9);
`laneLine` a received line and the check word at its end (R16); `controlPacket` the words of a packet
from its flag (R22, log 26); `packetInReceptionStart` the words received after the identity (log 27). -/
inductive Instr where
  | powerReset
  | pinReset
  | fieldPulse (ticks lines : Nat) (opens : Parity)
  | enterLocked
  | enterHoldover (cause : HoldoverCause)
  | silence
  | alignmentSearchTimeout
  | outputFieldStart
  | laneDown (lane : Nat)
  | laneFieldStart (lane elapsed : Nat)
  | laneLine (lane : Nat) (samples : Line) (check : LinkWord)
  | laneErrors (lane : Nat)
  | controlPacket (words : List LinkWord)
  | controlBlankingEnd
  | select (tag : Tag) (bus source : Nat)
  | setNext (tag : Tag) (me : Me) (sel : NextSel)
  | setTransition (tag : Tag) (engine : EngineId) (settings : NextSettings)
  | take (tag : Tag) (engines : EngineSet)
  | cut (tag : Tag) (engines : EngineSet)
  | hold (tag : Tag) (engines : EngineSet)
  | resume (tag : Tag) (engines : EngineSet)
  | release (tag : Tag) (engines : EngineSet)
  | lever (tag : Tag) (me : Me) (position : Nat)
  | force (tag : Tag) (engine : EngineId) (value : Nat)
  | setKey (tag : Tag) (keyer : Nat) (settings : KeySettings)
  | setMatte (tag : Tag) (matte : Matte) (colour : Colour)
  | setLane (tag : Tag) (lane : Nat) (settings : LaneSettings)
  | reseek (tag : Tag) (lanes : LaneSet)
  | setFormat (tag : Tag) (format : Format)
  | loadShape (tag : Tag) (shape : Nat) (record : ShapeRecord)
  | loadCurve (tag : Tag) (curve first : Nat) (points : List Nat)
  | loadSource (tag : Tag) (source : Nat) (record : SourceRecord)
  | commit (tag : Tag) (kinds : TableSet)
  | setMonitor (tag : Tag) (point : MonPoint)
  | checkerStart (tag : Tag) (point : CheckPoint) (mode : CheckMode)
  | checkerStop (tag : Tag)
  | snapshotKeep (tag : Tag)
  | snapshotClear (tag : Tag)
  | clearConditionsAll (tag : Tag)
  | clearConditionsOne (tag : Tag) (kind : ConditionKind) (subject : Nat)
  | setReports (tag : Tag) (enables : Enables) (mask : KindSet)
  | purgeAll (tag : Tag)
  | purgeTag (tag : Tag) (named : Tag)
  | bypass (tag : Tag) (source : Option Nat)
  | engineReset (tag : Tag)
  | checkerJudgment
  | reportFormation
  | presentationPoint
  | packetInReceptionStart (words : List LinkWord)
deriving DecidableEq, Repr

end Sys2Proof
end

