-- ==== Sys2Proof/Machine/Operands.lean ====
section
/-!
DEFINITION. The operands of the panel commands: the value sets of R27, the clamped parameters of R28,
the LOOP test of R26, and the kind codes and notice subjects of R27 and 11.4.
-/

namespace Sys2Proof

/-- The engine of a mix/effects bank. -/
def Me.engine : Me → EngineId
  | .me1 => .me1
  | .me2 => .me2

/-- The number of an engine (00 Engines and keyers). -/
def EngineId.code : EngineId → Nat
  | .me1 => 0
  | .me2 => 1
  | .dsk1 => 2
  | .dsk2 => 3
  | .ftb => 4

/-- The five engines in order of number. -/
def EngineId.all : List EngineId := [.me1, .me2, .dsk1, .dsk2, .ftb]

/-- Whether an engine is a member of a set. -/
def EngineId.isIn (e : EngineId) (set : EngineSet) : Bool := set.getLsbD e.code

/-- Whether an engine is an M/E engine. -/
def EngineId.isMe : EngineId → Bool
  | .me1 | .me2 => true
  | .dsk1 | .dsk2 | .ftb => false

/-- The selected keys of a bank whose K1 is keyer `base`. -/
def NextSel.keys (sel : NextSel) (base : Nat) : List Nat :=
  (if sel.k1 then [base] else []) ++ (if sel.k2 then [base + 1] else []) ++
    (if sel.k3 then [base + 2] else [])

/-- The first keyer of a bank (00 Engines and keyers). -/
def EngineId.firstKeyer : EngineId → Nat
  | .me1 => 0
  | .me2 => 3
  | .dsk1 => 6
  | .dsk2 => 7
  | .ftb => 0

/-- Parity in the formats: only the interlaced format has a second field (00 Picture geometry). -/
def Format.interlaced : Format → Bool
  | .interlaced1080 => true
  | .progressive1080 | .uhd2160 => false

/-- The source number of a matte generator (00 Source numbers). -/
def Matte.source : Matte → Nat
  | .matte1 => 25
  | .matte2 => 26

/-- `clamp(x, a, b)` of the manual's conventions. -/
def clamp (x a b : Nat) : Nat := min (max x a) b

/-- A lane map names a nonempty set of lanes 1 to 25 and nothing else (R27, R183). -/
def LaneSet.inRange (lanes : LaneSet) : Bool :=
  lanes != 0#32 && (List.range 32).all fun n => !lanes.getLsbD n || (1 ≤ n && n ≤ 25)

/-- The points of SET MONITOR (R150). -/
def MonPoint.inRange : MonPoint → Bool
  | .source n => n ≤ 30
  | .pgm | .clean | .pvw | .me1 | .me1LookAhead => true

/-- The points of CHECKER START (R27). -/
def CheckPoint.inRange : CheckPoint → Bool
  | .lane n => 1 ≤ n && n ≤ 24
  | .pgm | .clean | .pvw | .me1 | .mon => true

/-- The parameters lie in the value sets of R27; the clamped parameters of R28 are not tested. -/
def Command.inRange : Command → Bool
  | .select bus source => bus ≤ 19 && source ≤ 30
  | .setNext _ _ => true
  | .setTransition _ t => t.shape ≤ 15 && t.border ≤ 255 && t.softness ≤ 255
  | .take set | .cut set | .hold set | .resume set | .release set => set != 0#5
  | .lever _ _ => true
  | .force _ _ => true
  | .setKey keyer k =>
    keyer ≤ 7 && k.clip ≤ 1023 && k.curve ≤ 7 && k.maskShape.all (· ≤ 15) && k.maskSize ≤ 4095
  | .setMatte _ _ => true
  | .setLane lane l => 1 ≤ lane && lane ≤ 25 && 1 ≤ l.limit && l.limit ≤ 15
  | .reseek lanes => lanes.inRange
  | .setFormat _ => true
  | .loadShape n r => n ≤ 15 && r.cu ≤ 4095 && r.cv ≤ 4095 && 1 ≤ r.aspect && r.aspect ≤ 64
  | .loadCurve n first points =>
    n ≤ 7 && first ≤ 32 && 1 ≤ points.length && points.length ≤ 33 && first + points.length ≤ 33
  | .loadSource n _ => n ≤ 30
  | .commit kinds => kinds.shapes || kinds.curves || kinds.sources
  | .setMonitor point => point.inRange
  | .checkerStart point _ => point.inRange
  | .checkerStop | .snapshotKeep | .snapshotClear | .clearConditionsAll => true
  | .clearConditionsOne _ subject => subject ≤ 25
  | .setReports _ _ => true
  | .purgeAll | .purgeTag _ => true
  | .bypass source => source.all (· ≤ 28)
  | .engineReset => true

/-- The LOOP test of R26: an ME1 bus naming 29 or 30, or another bus naming 30. -/
def Command.loops : Command → Bool
  | .select bus source => (bus ≤ 7 && (source == 29 || source == 30)) || (8 ≤ bus && source == 30)
  | _ => false

/-- The clamped parameters brought into range (R28). -/
def Command.clamp : Command → Command
  | .setTransition e t => .setTransition e { t with rate := min t.rate 999 }
  | .lever me position => .lever me (min position 1024)
  | .force e value => .force e (min value 1024)
  | .setKey n k => .setKey n { k with gain := Sys2Proof.clamp k.gain 16 4095 }
  | .setLane n l => .setLane n { l with window := min l.window 16 }
  | .loadCurve n first points => .loadCurve n first (points.map (min · 1024))
  | .setMatte m c =>
    .setMatte m ⟨Sys2Proof.clamp c.y 64 940, Sys2Proof.clamp c.cb 64 960, Sys2Proof.clamp c.cr 64 960⟩
  | c => c

/-- A command as it may stand in the Pending List: it has passed tests 3 and 4 of R26, with the clamped
values of R28 in place. -/
def Command.admissible (c : Command) : Bool := c.inRange && !c.loops && c.clamp == c

/-- The kind code of a command (11.4). -/
def Command.code : Command → Nat
  | .select _ _ => 1
  | .setNext _ _ => 2
  | .setTransition _ _ => 3
  | .take _ => 4
  | .cut _ => 5
  | .hold _ => 6
  | .resume _ => 7
  | .release _ => 8
  | .lever _ _ => 9
  | .force _ _ => 10
  | .setKey _ _ => 11
  | .setMatte _ _ => 12
  | .setLane _ _ => 13
  | .reseek _ => 14
  | .setFormat _ => 15
  | .loadShape _ _ => 16
  | .loadCurve _ _ _ => 17
  | .loadSource _ _ => 18
  | .commit _ => 19
  | .setMonitor _ => 20
  | .checkerStart _ _ | .checkerStop => 21
  | .snapshotKeep | .snapshotClear => 22
  | .clearConditionsAll | .clearConditionsOne _ _ => 23
  | .setReports _ _ => 24
  | .purgeAll | .purgeTag _ => 25
  | .bypass _ => 26
  | .engineReset => 27

/-- The subject that a command's notices carry, apart from the refusals of R26 and of the engines of a
set at delivery (R27). -/
def Command.subject : Command → Nat
  | .select bus _ => bus
  | .setNext me _ => me.engine.code
  | .setTransition e _ => e.code
  | .lever me _ => me.engine.code
  | .force e _ => e.code
  | .setKey keyer _ => keyer
  | .setMatte m _ => m.source
  | .setLane lane _ => lane
  | .loadShape n _ => n
  | .loadCurve n _ _ => n
  | .loadSource n _ => n
  | _ => 0

/-- Whether a command acts at its arrival and takes no place in the Pending List (2.4). -/
def Command.atArrival : Command → Bool
  | .purgeAll | .purgeTag _ | .bypass _ => true
  | _ => false

end Sys2Proof
end

