-- ==== Sys2Proof/Decode.lean ====
section
/-!
DEFINITION. Decoding. `decodeTableWord` answers for the rows of spec/opcode_table.json: the table gives
no row any bits, so no word spells a command (log 2). What the ZE-24 itself decodes is the payload of a
control packet: `decodeCommand` reads a command from its bytes as 11.2 to 11.4 lay them out, and
`encodePayload` writes them.
-/

namespace Sys2Proof

/-- The command that a word spells by the table's bits: none, as the table gives no row any bits. -/
def decodeTableWord (_nbits _w : Nat) : Option Instr := none

/-- The byte at place `i` of a payload. -/
def byteAt (p : List Byte) (i : Nat) : Nat := (p.getD i 0).toNat

/-- The two-byte field at place `i`, most significant byte first (R183). -/
def fieldAt (p : List Byte) (i : Nat) : Nat := byteAt p i * 256 + byteAt p (i + 1)

/-- The four-byte field at place `i` (R183). -/
def longAt (p : List Byte) (i : Nat) : Nat := fieldAt p i * 65536 + fieldAt p (i + 2)

/-- A byte of a payload. -/
def byteOf (n : Nat) : Byte := BitVec.ofNat 8 n

/-- A field of two bytes, most significant byte first (R183). -/
def fieldBytes (n : Nat) : List Byte := [byteOf (n / 256), byteOf n]

/-- A field of four bytes, most significant byte first (R183). -/
def longBytes (n : Nat) : List Byte := fieldBytes (n / 65536) ++ fieldBytes n

/-- A yes/no field (R183). -/
def decodeBool : Nat → Option Bool
  | 0 => some false
  | 1 => some true
  | _ => none

/-- The codes of 11.3. -/
def decodeMe : Nat → Option Me
  | 0 => some .me1
  | 1 => some .me2
  | _ => none

def decodeEngine : Nat → Option EngineId
  | 0 => some .me1
  | 1 => some .me2
  | 2 => some .dsk1
  | 3 => some .dsk2
  | 4 => some .ftb
  | _ => none

def decodeStyle : Nat → Option Style
  | 0 => some .mix
  | 1 => some .wipe
  | _ => none

def decodeMatte : Nat → Option Matte
  | 0 => some .matte1
  | 1 => some .matte2
  | _ => none

def decodeSubstitute : Nat → Option Substitute
  | 0 => some .black
  | 1 => some .matte1
  | 2 => some .matte2
  | _ => none

def decodeKeyType : Nat → Option KeyType
  | 0 => some .luma
  | 1 => some .linear
  | _ => none

def decodeFormat : Nat → Option Format
  | 0 => some .interlaced1080
  | 1 => some .progressive1080
  | 2 => some .uhd2160
  | _ => none

def decodeShapeKind : Nat → Option ShapeKind
  | 0 => some .horizontal
  | 1 => some .vertical
  | 2 => some .diagonal
  | 3 => some .box
  | 4 => some .diamond
  | _ => none

def decodeConditionKind : Nat → Option ConditionKind
  | 0 => some .refLost
  | 1 => some .laneDown
  | 2 => some .laneErrors
  | 3 => some .laneFormat
  | 4 => some .laneUntimed
  | 5 => some .laneSlip
  | 6 => some .controlCheck
  | 7 => some .controlOverrun
  | 8 => some .queueHold
  | 9 => some .checkerError
  | 10 => some .noticeOverflow
  | _ => none

/-- A mask shape: 0 to 15, 255 NONE; another number is read as it stands and fails the range test. -/
def decodeMaskShape (n : Nat) : Option Nat := if n = 255 then none else some n

/-- A monitor point: 0 to 30 sources, 32 to 36 outputs (11.3). -/
def decodeMonPoint (n : Nat) : Option MonPoint :=
  if n ≤ 30 then some (.source n)
  else match n with
    | 32 => some .pgm
    | 33 => some .clean
    | 34 => some .pvw
    | 35 => some .me1
    | 36 => some .me1LookAhead
    | _ => none

/-- A checker point: 1 to 24 lanes, 32 to 35 and 37 outputs (11.3). -/
def decodeCheckPoint (n : Nat) : Option CheckPoint :=
  if 1 ≤ n ∧ n ≤ 24 then some (.lane n)
  else match n with
    | 32 => some .pgm
    | 33 => some .clean
    | 34 => some .pvw
    | 35 => some .me1
    | 37 => some .mon
    | _ => none

def decodeCheckMode : Nat → Option CheckMode
  | 0 => some .saturate
  | 1 => some .wrap
  | _ => none

/-- A bitmap of `n` members; a bit that names no member puts it outside its set (R183). -/
def decodeMap (n : Nat) (x : Nat) : Option (BitVec n) :=
  if x < 2 ^ n then some (BitVec.ofNat n x) else none

def decodeNextSel (x : Nat) : Option NextSel :=
  (decodeMap 4 x).map fun m => ⟨m.getLsbD 0, m.getLsbD 1, m.getLsbD 2, m.getLsbD 3⟩

def decodeTableSet (x : Nat) : Option TableSet :=
  (decodeMap 3 x).map fun m => ⟨m.getLsbD 0, m.getLsbD 1, m.getLsbD 2⟩

def decodeEnables (x : Nat) : Option Enables :=
  (decodeMap 3 x).map fun m => ⟨m.getLsbD 0, m.getLsbD 1, m.getLsbD 2⟩

def decodeSourceRecord (x : Nat) : Option SourceRecord :=
  (decodeMap 3 x).map fun m => ⟨m.getLsbD 0, m.getLsbD 1, m.getLsbD 2⟩

/-- The points of a LOAD CURVE payload, from its ninth byte on. -/
def curvePoints (p : List Byte) (count : Nat) : List Nat :=
  (List.range count).map fun i => fieldAt p (9 + 2 * i)

/-- The payload length that a kind calls for, a LOAD CURVE's from its count byte (R26, 11.4); `none`
where the kind is not one of R27, or where a LOAD CURVE carries no count. -/
def payloadLength (p : List Byte) : Option Nat :=
  match byteAt p 0 with
  | 1 => some 8
  | 2 => some 8
  | 3 => some 15
  | 4 => some 7
  | 5 => some 7
  | 6 => some 7
  | 7 => some 7
  | 8 => some 7
  | 9 => some 9
  | 10 => some 9
  | 11 => some 18
  | 12 => some 13
  | 13 => some 11
  | 14 => some 10
  | 15 => some 7
  | 16 => some 13
  | 17 => if p.length < 9 then none else some (9 + 2 * byteAt p 8)
  | 18 => some 8
  | 19 => some 7
  | 20 => some 7
  | 21 => some 9
  | 22 => some 7
  | 23 => some 9
  | 24 => some 9
  | 25 => some 9
  | 26 => some 7
  | 27 => some 6
  | _ => none

/-- The kinds of R27: a kind byte of 0, or of 28 or above, names none (11.4). -/
def knownKind (kind : Nat) : Bool := 1 ≤ kind && kind ≤ 27

/-- The command of a payload, by the layouts of 11.4. `none` where an enumerated or yes/no field or a
bitmap holds a value not given for it (R183); the numbers are tested by `Command.inRange`. -/
def decodeCommand (p : List Byte) : Option Command :=
  match byteAt p 0 with
  | 1 => some (.select (byteAt p 6) (byteAt p 7))
  | 2 => do return .setNext (← decodeMe (byteAt p 6)) (← decodeNextSel (byteAt p 7))
  | 3 => do
    return .setTransition (← decodeEngine (byteAt p 6))
      { style := ← decodeStyle (byteAt p 7), rate := fieldAt p 8, shape := byteAt p 10,
        border := byteAt p 11, softness := byteAt p 12, matte := ← decodeMatte (byteAt p 13),
        reverse := ← decodeBool (byteAt p 14) }
  | 4 => do return .take (← decodeMap 5 (byteAt p 6))
  | 5 => do return .cut (← decodeMap 5 (byteAt p 6))
  | 6 => do return .hold (← decodeMap 5 (byteAt p 6))
  | 7 => do return .resume (← decodeMap 5 (byteAt p 6))
  | 8 => do return .release (← decodeMap 5 (byteAt p 6))
  | 9 => do return .lever (← decodeMe (byteAt p 6)) (fieldAt p 7)
  | 10 => do return .force (← decodeEngine (byteAt p 6)) (fieldAt p 7)
  | 11 => do
    return .setKey (byteAt p 6)
      { type := ← decodeKeyType (byteAt p 7), clip := fieldAt p 8, gain := fieldAt p 10,
        invert := ← decodeBool (byteAt p 12), curve := byteAt p 13,
        maskShape := decodeMaskShape (byteAt p 14), maskSize := fieldAt p 15,
        maskInvert := ← decodeBool (byteAt p 17) }
  | 12 => do
    return .setMatte (← decodeMatte (byteAt p 6)) ⟨fieldAt p 7, fieldAt p 9, fieldAt p 11⟩
  | 13 => do
    return .setLane (byteAt p 6)
      { substitute := ← decodeSubstitute (byteAt p 7), window := byteAt p 8, limit := byteAt p 9,
        swap := ← decodeBool (byteAt p 10) }
  | 14 => some (.reseek (BitVec.ofNat 32 (longAt p 6)))
  | 15 => do return .setFormat (← decodeFormat (byteAt p 6))
  | 16 => do
    return .loadShape (byteAt p 6)
      { kind := ← decodeShapeKind (byteAt p 7), cu := fieldAt p 8, cv := fieldAt p 10,
        aspect := byteAt p 12 }
  | 17 => some (.loadCurve (byteAt p 6) (byteAt p 7) (curvePoints p (byteAt p 8)))
  | 18 => do return .loadSource (byteAt p 6) (← decodeSourceRecord (byteAt p 7))
  | 19 => do return .commit (← decodeTableSet (byteAt p 6))
  | 20 => do return .setMonitor (← decodeMonPoint (byteAt p 6))
  | 21 =>
    match byteAt p 6 with
    | 0 => some .checkerStop
    | 1 => do return .checkerStart (← decodeCheckPoint (byteAt p 7)) (← decodeCheckMode (byteAt p 8))
    | _ => none
  | 22 =>
    match byteAt p 6 with
    | 0 => some .snapshotKeep
    | 1 => some .snapshotClear
    | _ => none
  | 23 =>
    match byteAt p 6 with
    | 0 => some .clearConditionsAll
    | 1 => do return .clearConditionsOne (← decodeConditionKind (byteAt p 7)) (byteAt p 8)
    | _ => none
  | 24 => do return .setReports (← decodeEnables (byteAt p 6)) (← decodeMap 11 (fieldAt p 7))
  | 25 =>
    match byteAt p 6 with
    | 0 => some .purgeAll
    | 1 => some (.purgeTag (BitVec.ofNat 16 (fieldAt p 7)))
    | _ => none
  | 26 => some (.bypass (if byteAt p 6 = 255 then none else some (byteAt p 6)))
  | 27 => some .engineReset
  | _ => none

/-! ### The encoder -/

/-- A bit at a weight. -/
def bitAt (b : Bool) (weight : Nat) : Nat := if b then weight else 0

def Me.code : Me → Nat
  | .me1 => 0
  | .me2 => 1

def Style.code : Style → Nat
  | .mix => 0
  | .wipe => 1

def Matte.code : Matte → Nat
  | .matte1 => 0
  | .matte2 => 1

def Substitute.code : Substitute → Nat
  | .black => 0
  | .matte1 => 1
  | .matte2 => 2

def KeyType.code : KeyType → Nat
  | .luma => 0
  | .linear => 1

def Format.code : Format → Nat
  | .interlaced1080 => 0
  | .progressive1080 => 1
  | .uhd2160 => 2

def ShapeKind.code : ShapeKind → Nat
  | .horizontal => 0
  | .vertical => 1
  | .diagonal => 2
  | .box => 3
  | .diamond => 4

/-- The codes of the condition kinds (11.3); the order of codes is the priority order of R178. -/
def ConditionKind.code : ConditionKind → Nat
  | .refLost => 0
  | .laneDown => 1
  | .laneErrors => 2
  | .laneFormat => 3
  | .laneUntimed => 4
  | .laneSlip => 5
  | .controlCheck => 6
  | .controlOverrun => 7
  | .queueHold => 8
  | .checkerError => 9
  | .noticeOverflow => 10

def MonPoint.code : MonPoint → Nat
  | .source n => n
  | .pgm => 32
  | .clean => 33
  | .pvw => 34
  | .me1 => 35
  | .me1LookAhead => 36

def CheckPoint.code : CheckPoint → Nat
  | .lane n => n
  | .pgm => 32
  | .clean => 33
  | .pvw => 34
  | .me1 => 35
  | .mon => 37

def CheckMode.code : CheckMode → Nat
  | .saturate => 0
  | .wrap => 1

def NextSel.code (s : NextSel) : Nat :=
  bitAt s.bkgd 1 + bitAt s.k1 2 + bitAt s.k2 4 + bitAt s.k3 8

def TableSet.code (s : TableSet) : Nat := bitAt s.shapes 1 + bitAt s.curves 2 + bitAt s.sources 4

def Enables.code (e : Enables) : Nat := bitAt e.status 1 + bitAt e.tally 2 + bitAt e.notices 4

def SourceRecord.code (r : SourceRecord) : Nat :=
  bitAt r.enabled 1 + bitAt r.legalise 2 + bitAt r.exempt 4

/-- The parameters of a command, from byte 6 of its payload on (11.4). -/
def Command.params : Command → List Byte
  | .select bus source => [byteOf bus, byteOf source]
  | .setNext me sel => [byteOf me.code, byteOf sel.code]
  | .setTransition e t =>
    [byteOf e.code, byteOf t.style.code] ++ fieldBytes t.rate ++
      [byteOf t.shape, byteOf t.border, byteOf t.softness, byteOf t.matte.code,
        byteOf (bitAt t.reverse 1)]
  | .take set | .cut set | .hold set | .resume set | .release set => [byteOf set.toNat]
  | .lever me position => byteOf me.code :: fieldBytes position
  | .force e value => byteOf e.code :: fieldBytes value
  | .setKey keyer k =>
    [byteOf keyer, byteOf k.type.code] ++ fieldBytes k.clip ++ fieldBytes k.gain ++
      [byteOf (bitAt k.invert 1), byteOf k.curve, byteOf (k.maskShape.getD 255)] ++
      fieldBytes k.maskSize ++ [byteOf (bitAt k.maskInvert 1)]
  | .setMatte m c => byteOf m.code :: (fieldBytes c.y ++ fieldBytes c.cb ++ fieldBytes c.cr)
  | .setLane lane l =>
    [byteOf lane, byteOf l.substitute.code, byteOf l.window, byteOf l.limit, byteOf (bitAt l.swap 1)]
  | .reseek lanes => longBytes lanes.toNat
  | .setFormat f => [byteOf f.code]
  | .loadShape n r =>
    [byteOf n, byteOf r.kind.code] ++ fieldBytes r.cu ++ fieldBytes r.cv ++ [byteOf r.aspect]
  | .loadCurve n first points =>
    [byteOf n, byteOf first, byteOf points.length] ++ points.flatMap fieldBytes
  | .loadSource n r => [byteOf n, byteOf r.code]
  | .commit kinds => [byteOf kinds.code]
  | .setMonitor point => [byteOf point.code]
  | .checkerStop => [0, 0, 0]
  | .checkerStart point mode => [1, byteOf point.code, byteOf mode.code]
  | .snapshotKeep => [0]
  | .snapshotClear => [1]
  | .clearConditionsAll => [0, 0, 0]
  | .clearConditionsOne kind subject => [1, byteOf kind.code, byteOf subject]
  | .setReports enables mask => byteOf enables.code :: fieldBytes mask.toNat
  | .purgeAll => [0, 0, 0]
  | .purgeTag tag => 1 :: fieldBytes tag.toNat
  | .bypass source => [byteOf (source.getD 255)]
  | .engineReset => []

/-- The payload of a command: the header of R25 (kind, tag, timing flag, due field) and its
parameters; `due` is `none` for IMMEDIATE, whose due field is not read. -/
def encodePayload (tag : Tag) (due : Option FieldNo) (c : Command) : List Byte :=
  byteOf c.code :: (fieldBytes tag.toNat ++ [byteOf (if due.isSome then 1 else 0)] ++
    fieldBytes (due.getD 0).toNat ++ c.params)

end Sys2Proof
end

