-- ==== Sys2Proof/Config.lean ====
section
/-!
DEFINITION. What an implementation fixes and the manual does not state: the free values, constants
without a body, and the model's unit of time. A claim holds whatever the free values are.
-/

namespace Sys2Proof

/-- The model's resolution of time: ticks in one nominal line period of the active format.
DESIGN CHOICE (log 5): the manual gives no unit of time below a line. -/
def Config.ticksPerLine : Nat := 1000

/-- A time counted in ticks of one format, counted in ticks of another. Free value (log 6): the line
rates are in the part's data sheet, not in the manual. -/
opaque Config.rescale : Format → Format → Nat → Nat

/-- The sample at a place that a line of a lane, short of samples, does not fill: of a field (by a
counter), a lane, a line and a place. Free value (log 18): R16 passes a bad line on as received. -/
opaque Config.unfilledSample : Nat → Nat → Nat → Nat → LinkWord

/-- The sample at a place of a blanking line that carries nothing of the part: of a field (by a
counter), an output lane (by its code), a line and a place, each lane on its own. Free value (log 23):
the manual states MON's Y places alone (R182). -/
opaque Config.blankingSample : Nat → Nat → Nat → Nat → LinkWord

end Sys2Proof
end

