-- ==== Sys2Proof/Machine/State.lean ====
section
/-!
DEFINITION. The state of the ZE-24, block by block as 00_scope.md's block diagram owns it, the faults
and refusals, and the state after a POWER reset. Fields that a rule names carry that rule; fields that
a rule only implies are marked "implied".
-/

namespace Sys2Proof.Machine

open Sys2Proof

/-! ### Timing Unit (chapter 1) -/

/-- How the output field starts are being timed (R3 to R7). -/
inductive RefState where
  | absent | locking | locked | holdover
deriving DecidableEq, Repr

/-- The Timing Unit. Times are in ticks of the active format (log 5). -/
structure Timing where
  ref : RefState
  /-- the field counter N: the number the next output field start will carry (R1) -/
  counter : FieldNo
  /-- the parity the next output field start will carry (R1) -/
  nextParity : Parity
  format : Format
  /-- good-field count (R4) -/
  good : Nat
  /-- wrong-field count (R5, R6) -/
  wrong : Nat
  /-- the held period (R6) -/
  held : Nat
  /-- implied: the number of the field in progress (R1, R177) -/
  field : FieldNo
  /-- implied: the parity of the field in progress -/
  parity : Parity
  /-- implied: an output field start has been raised since the last POWER or PIN reset (R7) -/
  started : Bool
  /-- implied: time since the output field in progress began -/
  sinceField : Nat
  /-- implied: the length at which the field in progress ends by its own timing (R3, R6) -/
  fieldPeriod : Nat
  /-- implied: a reference field start has been accepted since the reset (R7) -/
  refSeen : Bool
  /-- implied: the reference is silent (R2, R7) -/
  silent : Bool
  /-- implied: time since the last accepted reference field start (R2) -/
  sinceRef : Nat
  /-- implied: line pulses since the last accepted reference field start (R2) -/
  refLines : Nat
  /-- implied: the parity that the pulse of the reference field in progress opened (R2) -/
  refParity : Parity
  /-- implied: the parity of the reference field before it, where one counts (R2, log 9) -/
  refPrev : Option Parity
  /-- implied: the period of the last correct reference field (R6) -/
  period1 : Nat
  /-- implied: the period of the correct reference field before it (R6) -/
  period2 : Nat
  /-- implied: output fields run at the held period (R3, R4, R6) -/
  heldInUse : Bool
  /-- implied: the alignment search of R5 is on -/
  aligning : Bool
  /-- implied: the presentation point of the field in progress has been reached (R10, R11) -/
  presented : Bool
deriving DecidableEq, Repr

/-! ### Lane Receivers (chapter 1) -/

/-- Lock state of a lane (R12 to R16). -/
inductive LaneState where
  | down | seek | timed | untimed
deriving DecidableEq, Repr

/-- What the lane field matched with an output field gives that field: the lane's state after its
start, and whether the lane's own picture may be delivered, that is, it was taken in TIMED with no slip
(R11). -/
structure LaneMatch where
  state : LaneState
  own : Bool
deriving DecidableEq, Repr

/-- The output field that the lane field in progress is matched with (R9). -/
inductive LaneTarget where
  | past | current | next
deriving DecidableEq, Repr

/-- A lane record, with what R9 to R16 imply beside it. -/
structure Lane where
  state : LaneState
  /-- lateness in use (R10, R14) -/
  lateness : Int
  /-- candidate lateness (R13) -/
  candidate : Int
  matchCount : Nat
  /-- delay in lines (R10) -/
  delay : Nat
  /-- slip pending (R14) -/
  slip : Bool
  /-- mismatch flag (R13) -/
  mismatch : Bool
  /-- bad-line count (R16) -/
  bad : Nat
  /-- missed fields (R12) -/
  missed : Nat
  settings : LaneSettings
  /-- implied: the bad-line limit that the lane field in progress began with (R16, R18) -/
  limitInForce : Nat
  /-- implied: the chroma swap that the lane field in progress began with (R18) -/
  swapInForce : Bool
  /-- implied: lines received in the lane field in progress (R13) -/
  lines : Nat
  /-- implied: the next lane field start only begins the first lane field to be judged (R20) -/
  unjudged : Bool
  /-- implied: parity of the output field matched with the start of the lane field in progress (R13): the
  one it has, or for a field yet to begin the one it is to have (log 39) -/
  openParity : Parity
  /-- implied: a lane field start was taken during the output field in progress (R12) -/
  seen : Bool
  target : LaneTarget
  /-- implied: the lines of the lane field in progress enter the alignment buffer (R9, R11, log 15) -/
  stored : Bool
  /-- implied: the match of the output field in progress, and of the next one (R9, R14) -/
  matchedCurrent : Option LaneMatch
  matchedNext : Option LaneMatch
  /-- the active lines in the alignment buffer, of the lane field matched with the output field in
  progress, and with the next one (R10, R11, log 17) -/
  pictureCurrent : List Line
  pictureNext : List Line
  /-- implied: the delivery decision of the output field in progress (R11) -/
  decision : LaneMatch
deriving DecidableEq, Repr

/-! ### Command Receiver and Pending List (chapter 2) -/

/-- The Command Receiver. -/
structure Receiver where
  taken : Nat
  dropped : Nat
  /-- the packet in reception: the words received after the identity (R22) -/
  inReception : Option (List LinkWord)
deriving DecidableEq, Repr

/-- An entry of the Pending List (2.6): its kind is the command's. -/
structure Entry where
  command : Command
  tag : Tag
  due : FieldNo
deriving DecidableEq, Repr

/-- The Pending List; its depth is the number of entries (2.6). -/
structure PendingList where
  entries : List Entry
  hold : Bool
deriving DecidableEq, Repr

/-! ### Table Store (chapter 3) -/

/-- A curve: the points T[0] to T[32] (R44). -/
abbrev Curve := Vector Nat 33

/-- The ACTIVE and SHADOW copies of the three tables and the dirty flags (R40). -/
structure Tables where
  shapes : Vector ShapeRecord 16
  shadowShapes : Vector ShapeRecord 16
  curves : Vector Curve 8
  shadowCurves : Vector Curve 8
  sources : Vector SourceRecord 31
  shadowSources : Vector SourceRecord 31
  dirtyShapes : Bool
  dirtyCurves : Bool
  dirtySources : Bool
deriving DecidableEq, Repr

/-! ### Crosspoint Matrix (chapter 4) -/

/-- The Crosspoint Matrix. A bypass of `none` is OFF; a staged request of `none` is empty. -/
structure Matrix where
  buses : Vector Nat 20
  bypass : Option Nat
  staged : Option (Option Nat)
  /-- exchange counts of ME1 and ME2 (R67) -/
  exchange1 : Nat
  exchange2 : Nat
deriving DecidableEq, Repr

/-! ### Transition Engines (chapter 5) -/

/-- The four engine states (R75). -/
inductive EngineState where
  | idle | auto | paused | lever
deriving DecidableEq, Repr

/-- The direction of a key participant (R78). -/
inductive Direction where
  | on | off
deriving DecidableEq, Repr

/-- The direction of an FTB run (R78). -/
inductive Fade where
  | toBlack | fromBlack
deriving DecidableEq, Repr

/-- What drives a run (R78). -/
inductive Driver where
  | auto | lever
deriving DecidableEq, Repr

/-- A set of elements that an engine drives: the background, keys by keyer number with a direction for
each, and the fade to black with its direction (R78, R82). -/
structure Elements where
  bkgd : Bool
  keys : List (Nat × Direction)
  fade : Option Fade
deriving DecidableEq, Repr

/-- A run record (R78). -/
structure RunRecord where
  elements : Elements
  settings : NextSettings
  /-- the shape copy, for ME1 and ME2 (R55) -/
  shape : Option ShapeRecord
  driver : Driver
deriving DecidableEq, Repr

/-- The sense of a lever record (R95). -/
inductive Sense where
  | up | down
deriving DecidableEq, Repr

/-- A lever record (R95). -/
structure LeverRecord where
  last : Nat
  sense : Sense
  offside : Bool
deriving DecidableEq, Repr

/-- A transition engine. The next selection and the lever record are ME1's and ME2's; DSK1, DSK2 and FTB
keep them at their reset values and never read them (log 32). -/
structure Engine where
  state : EngineState
  j : Nat
  /-- progress coefficient (R80) -/
  q : Nat
  next : NextSettings
  sel : NextSel
  run : Option RunRecord
  /-- the force value where the forced flag is set (R101) -/
  force : Option Nat
  lever : LeverRecord
deriving DecidableEq, Repr

/-- The five engines. -/
structure Engines where
  me1 : Engine
  me2 : Engine
  dsk1 : Engine
  dsk2 : Engine
  ftb : Engine
deriving DecidableEq, Repr

/-! ### Keyers and Downstream Stage (chapter 7) -/

/-- A keyer: its settings and its on-air flag. -/
structure Keyer where
  settings : KeySettings
  onAir : Bool
deriving DecidableEq, Repr

/-- The FTB state (R138). -/
inductive FtbState where
  | clear | blacked
deriving DecidableEq, Repr

/-! ### Tally Unit (chapter 8) -/

/-- A set of sources as a 31-member map indexed by source number (R157). -/
abbrev SourceSet := Vector Bool 31

/-- The tally sets of the field in progress (R155, R156). -/
structure Tally where
  program : SourceSet
  preview : SourceSet
deriving DecidableEq, Repr

/-! ### Generators and Path Checker (chapter 9) -/

/-- The Generators. -/
structure Generators where
  matte1 : Colour
  matte2 : Colour
  /-- the TEST sequence register (R163, log 19) -/
  test : Nat
deriving DecidableEq, Repr

/-- The states of the path checker (R166). -/
inductive CheckerState where
  | idle | seeking | locked
deriving DecidableEq, Repr

/-- A snapshot record (R170). -/
structure Snapshot where
  state : CheckerState
  checked : Nat
  errored : Nat
  erroredFields : Nat
  overflow : Bool
  field : FieldNo
deriving DecidableEq, Repr

/-- The path checker. -/
structure Checker where
  state : CheckerState
  point : CheckPoint
  mode : CheckMode
  /-- checked fields -/
  checked : Nat
  /-- errored samples -/
  errored : Nat
  /-- errored fields -/
  erroredFields : Nat
  overflow : Bool
  snapshot : Option Snapshot
deriving DecidableEq, Repr

/-! ### Report Builder (chapter 10) -/

/-- The reasons of a notice, in the code order of 11.3. -/
inductive Reason where
  | badCommand | badLength | badRange | loop | stale | queueFull | busy | sourceDisabled
  | emptyNext | notRunning | badStyle | late | clamped
deriving DecidableEq, Repr

/-- A notice (R176); the kind is the kind byte as received. -/
structure Notice where
  tag : Tag
  kind : Nat
  reason : Reason
  subject : Nat
deriving DecidableEq, Repr

/-- A condition entry (R177). -/
structure Condition where
  kind : ConditionKind
  subject : Nat
  first : FieldNo
  last : FieldNo
  count : Nat
  detail : Int
deriving DecidableEq, Repr

/-- The reset cause (R181). -/
inductive ResetCause where
  | power | pin | command
deriving DecidableEq, Repr

/-- The Report Builder. -/
structure Reports where
  notices : List Notice
  overflow : Nat
  conditions : List Condition
  listFull : Bool
  enables : Enables
  mask : KindSet
  cause : ResetCause
deriving DecidableEq, Repr

/-- What STATUS reports of an engine (R106). -/
structure EngineReport where
  state : EngineState
  j : Nat
  rate : Nat
  shown : Nat
  forced : Bool
deriving DecidableEq, Repr

/-- The items of STATUS that R174 takes as they stand once the deliveries, steps and exchanges of the
field are done. Lane states and the snapshot are read when STATUS is formed. -/
structure StatusView where
  number : FieldNo
  parity : Parity
  format : Format
  ref : RefState
  cause : ResetCause
  depth : Nat
  hold : Bool
  bypass : Option Nat
  engines : List EngineReport
  onAir : List Bool
  ftb : FtbState
  lever1 : LeverRecord
  lever2 : LeverRecord
  dirtyShapes : Bool
  dirtyCurves : Bool
  dirtySources : Bool
  checker : CheckerState
deriving DecidableEq, Repr

/-! ### What the pictures of a field are formed from (R63, R74, R144) -/

/-- What the pictures of the field in progress are formed from, as it stands once the deliveries, steps
and exchanges of the field are done: nothing of it changes partway through the field (R63, R74, R144).
Format, parity and the delivery decisions of the lanes stand in their own blocks. -/
structure PictureState where
  buses : Vector Nat 20
  bypass : Option Nat
  shapes : Vector ShapeRecord 16
  curves : Vector Curve 8
  sources : Vector SourceRecord 31
  engines : Engines
  keyers : Vector Keyer 8
  ftb : FtbState
  mon : MonPoint
  matte1 : Colour
  matte2 : Colour
  substitutes : Vector Substitute 25
deriving DecidableEq, Repr

end Sys2Proof.Machine

namespace Sys2Proof.Machine

open Sys2Proof

/-- The state of the part. `pending` and `free` are the model's own: the queue of rows that wait to be
taken (log 1), and the counter that makes the free value of an unfilled or blanking sample fresh for
every field (log 18, log 23). -/
structure State where
  timing : Timing
  lanes : Vector Lane 25
  receiver : Receiver
  waiting : PendingList
  tables : Tables
  matrix : Matrix
  engines : Engines
  keyers : Vector Keyer 8
  ftb : FtbState
  mon : MonPoint
  tally : Tally
  generators : Generators
  checker : Checker
  reports : Reports
  /-- the STATUS items of the field in progress (R174) -/
  status : StatusView
  /-- implied: what the pictures of the field in progress are formed from (R63, R74, R144) -/
  picture : PictureState
  /-- the report packets placed in MON's blanking after the field in progress (R173) -/
  packets : List (List LinkWord)
  free : Nat
  pending : List Instr
deriving DecidableEq, Repr

/-- The faults of the part: none. The manual names no state in which the part stops. -/
inductive Fault where
deriving DecidableEq, Repr

/-- The refusals of a step. -/
inductive Refusal where
  /-- raised by `exec` for a row that has no meaning yet; no row is left so. Safe: the model stops
  where the part goes on. -/
  | notModelled (mnemonic : String)
deriving DecidableEq, Repr

/-! ### The state after reset -/

/-- Ticks of a nominal field of 1920×1080 interlaced, parity 0 (R7, log 7). -/
def resetPeriod : Nat := 563 * Config.ticksPerLine

/-- R1, R7, and log 8, log 10, log 21 for the implied fields. -/
def Timing.reset : Timing where
  ref := .absent
  counter := 0
  nextParity := false
  format := .interlaced1080
  good := 0
  wrong := 0
  held := resetPeriod
  field := 0
  parity := false
  started := false
  sinceField := 0
  fieldPeriod := resetPeriod
  refSeen := false
  silent := true
  sinceRef := 0
  refLines := 0
  refParity := false
  refPrev := none
  period1 := resetPeriod
  period2 := resetPeriod
  heldInUse := false
  aligning := false
  presented := false

/-- R19, and log 21 for the implied fields. -/
def Lane.reset : Lane where
  state := .down
  lateness := 0
  candidate := 0
  matchCount := 0
  delay := 16
  slip := false
  mismatch := false
  bad := 0
  missed := 0
  settings := ⟨.black, 8, 4, false⟩
  limitInForce := 4
  swapInForce := false
  lines := 0
  unjudged := false
  openParity := false
  seen := false
  target := .past
  stored := false
  matchedCurrent := none
  matchedNext := none
  pictureCurrent := []
  pictureNext := []
  decision := ⟨.down, false⟩

/-- R42. -/
def resetShapes : Vector ShapeRecord 16 :=
  #v[⟨.horizontal, 2048, 2048, 16⟩, ⟨.vertical, 2048, 2048, 16⟩, ⟨.diagonal, 2048, 2048, 16⟩,
    ⟨.box, 2048, 2048, 9⟩, ⟨.diamond, 2048, 2048, 9⟩, ⟨.horizontal, 2048, 2048, 16⟩,
    ⟨.horizontal, 2048, 2048, 16⟩, ⟨.horizontal, 2048, 2048, 16⟩, ⟨.horizontal, 2048, 2048, 16⟩,
    ⟨.horizontal, 2048, 2048, 16⟩, ⟨.horizontal, 2048, 2048, 16⟩, ⟨.horizontal, 2048, 2048, 16⟩,
    ⟨.horizontal, 2048, 2048, 16⟩, ⟨.horizontal, 2048, 2048, 16⟩, ⟨.horizontal, 2048, 2048, 16⟩,
    ⟨.horizontal, 2048, 2048, 16⟩]

/-- The identity curve, T[i] = 32·i (R44). -/
def identityCurve : Curve := ⟨⟨(List.range 33).map (32 * ·)⟩, by simp⟩

/-- R47: every source enabled, none legalised; 0 and 25 to 28 tally-exempt. -/
def resetSources : Vector SourceRecord 31 :=
  ⟨⟨(List.range 31).map fun n => ⟨true, false, n == 0 || (25 ≤ n && n ≤ 28)⟩⟩, by simp⟩

/-- R42, R44, R47, R58. -/
def Tables.reset : Tables where
  shapes := resetShapes
  shadowShapes := resetShapes
  curves := Vector.replicate 8 identityCurve
  shadowCurves := Vector.replicate 8 identityCurve
  sources := resetSources
  shadowSources := resetSources
  dirtyShapes := false
  dirtyCurves := false
  dirtySources := false

/-- R73. -/
def Matrix.reset : Matrix := ⟨Vector.replicate 20 0, none, none, 0, 0⟩

/-- R105. -/
def NextSettings.reset : NextSettings := ⟨.mix, 25, 0, 0, 0, .matte1, false⟩

/-- R105. -/
def LeverRecord.reset : LeverRecord := ⟨0, .up, false⟩

/-- R105, for an M/E engine; the next selection of DSK1, DSK2 and FTB is not the spec's (log 32). -/
def Engine.reset (sel : NextSel) : Engine :=
  ⟨.idle, 0, 0, NextSettings.reset, sel, none, none, LeverRecord.reset⟩

/-- R105. -/
def Engines.reset : Engines :=
  ⟨Engine.reset ⟨true, false, false, false⟩, Engine.reset ⟨true, false, false, false⟩,
    Engine.reset ⟨false, false, false, false⟩, Engine.reset ⟨false, false, false, false⟩,
    Engine.reset ⟨false, false, false, false⟩⟩

/-- R141. -/
def Keyer.reset : Keyer := ⟨⟨.luma, 64, 16, false, 0, none, 4095, false⟩, false⟩

/-- Black: Y 64, Cb 512, Cr 512 (00 Samples). -/
def Colour.black : Colour := ⟨64, 512, 512⟩

/-- R172. -/
def Checker.reset : Checker := ⟨.idle, .pgm, .saturate, 0, 0, 0, false, none⟩

/-- R181. -/
def Reports.reset (cause : ResetCause) : Reports :=
  ⟨[], 0, [], false, ⟨true, true, true⟩, 0#11, cause⟩

/-- What STATUS reports of an engine at reset (R105, R106). -/
def EngineReport.reset : EngineReport := ⟨.idle, 0, 0, 0, false⟩

/-- The STATUS items before any field start: those of the reset state (log 24). -/
def StatusView.reset (cause : ResetCause) : StatusView where
  number := 0
  parity := false
  format := .interlaced1080
  ref := .absent
  cause := cause
  depth := 0
  hold := false
  bypass := none
  engines := List.replicate 5 EngineReport.reset
  onAir := List.replicate 8 false
  ftb := .clear
  lever1 := LeverRecord.reset
  lever2 := LeverRecord.reset
  dirtyShapes := false
  dirtyCurves := false
  dirtySources := false
  checker := .idle

/-- The pictures before any field start: those of the reset state (log 22). -/
def PictureState.reset : PictureState where
  buses := Matrix.reset.buses
  bypass := none
  shapes := resetShapes
  curves := Vector.replicate 8 identityCurve
  sources := resetSources
  engines := Engines.reset
  keyers := Vector.replicate 8 Keyer.reset
  ftb := .clear
  mon := .pgm
  matte1 := Colour.black
  matte2 := Colour.black
  substitutes := Vector.replicate 25 .black

/-- The state after a POWER or PIN reset, by its cause (R7, R19, R39, R58, R73, R105, R141, R150, R161,
R172, R181). -/
def State.resetBy (cause : ResetCause) : State where
  timing := Timing.reset
  lanes := Vector.replicate 25 Lane.reset
  receiver := ⟨0, 0, none⟩
  waiting := ⟨[], false⟩
  tables := Tables.reset
  matrix := Matrix.reset
  engines := Engines.reset
  keyers := Vector.replicate 8 Keyer.reset
  ftb := .clear
  mon := .pgm
  tally := ⟨Vector.replicate 31 false, Vector.replicate 31 false⟩
  generators := ⟨Colour.black, Colour.black, 1⟩
  checker := Checker.reset
  reports := Reports.reset cause
  status := StatusView.reset cause
  picture := PictureState.reset
  packets := []
  free := 0
  pending := []

/-- The state right after the POWER reset. -/
def State.reset : State := State.resetBy .power

end Sys2Proof.Machine
end

