-- ==== Sys2Proof/Machine/Ops.lean ====
section
/-!
DEFINITION. The named operations that every block shares: reading and writing the numbered records,
posting conditions (R177) and notices (R176), and the geometry of the formats (chapter 1, R185).
-/

namespace Sys2Proof.Machine

open Sys2Proof

/-! ### Numbered records -/

/-- The record numbered `i`, or `d` where the table has none of that number. -/
def look {α : Type} {n : Nat} (v : Vector α n) (i : Nat) (d : α) : α := (v[i]?).getD d

/-- The table with record `i` replaced; unchanged where it has none of that number. -/
def put {α : Type} {n : Nat} (v : Vector α n) (i : Nat) (x : α) : Vector α n := v.setIfInBounds i x

/-- Every record changed by a function of its number. -/
def changeAll {α : Type} {n : Nat} (f : Nat → α → α) (v : Vector α n) : Vector α n :=
  ⟨⟨v.toList.mapIdx f⟩, by simp⟩

/-- The engine of a name. -/
def Engines.get (es : Engines) : EngineId → Engine
  | .me1 => es.me1
  | .me2 => es.me2
  | .dsk1 => es.dsk1
  | .dsk2 => es.dsk2
  | .ftb => es.ftb

/-- The engines with one replaced. -/
def Engines.set (es : Engines) (e : EngineId) (x : Engine) : Engines :=
  match e with
  | .me1 => { es with me1 := x }
  | .me2 => { es with me2 := x }
  | .dsk1 => { es with dsk1 := x }
  | .dsk2 => { es with dsk2 := x }
  | .ftb => { es with ftb := x }

/-- The engine of a name, in the state. -/
def State.engine (s : State) (e : EngineId) : Engine := s.engines.get e

/-- The state with one engine replaced. -/
def State.setEngine (s : State) (e : EngineId) (x : Engine) : State :=
  { s with engines := s.engines.set e x }

/-- Lane `n`, 1 to 25 (25 is lane C). -/
def State.lane (s : State) (n : Nat) : Lane := look s.lanes (n - 1) Lane.reset

/-- Whether a number names a lane. -/
def isLane (n : Nat) : Bool := 1 ≤ n && n ≤ 25

/-- The number of the control lane (00 Source numbers). -/
def laneC : Nat := 25

/-- Lane C yields control packets in TIMED and UNTIMED (R17). -/
def LaneState.takesPackets : LaneState → Bool
  | .timed | .untimed => true
  | .down | .seek => false

/-- The state with lane `n` replaced. When lane C is thereby not TIMED or UNTIMED, a packet in reception
is discarded (R24). -/
def State.setLane (s : State) (n : Nat) (l : Lane) : State :=
  { s with
    lanes := put s.lanes (n - 1) l
    receiver :=
      if n = laneC ∧ l.state.takesPackets = false then { s.receiver with inReception := none }
      else s.receiver }

/-- The source a bus holds. -/
def State.bus (s : State) (b : Nat) : Nat := look s.matrix.buses b 0

/-- A keyer. -/
def State.keyer (s : State) (n : Nat) : Keyer := look s.keyers n Keyer.reset

/-- The ACTIVE source record of a source. -/
def State.source (s : State) (n : Nat) : SourceRecord := look s.tables.sources n ⟨true, false, false⟩

/-- The ACTIVE shape record of a shape number. -/
def State.shape (s : State) (n : Nat) : ShapeRecord :=
  look s.tables.shapes n ⟨.horizontal, 2048, 2048, 16⟩

/-- The ACTIVE curve of a curve number. -/
def State.curve (s : State) (n : Nat) : Curve := look s.tables.curves n identityCurve

/-! ### Conditions and notices -/

/-- Whether an entry stands for a kind and subject. -/
def Condition.isFor (c : Condition) (kind : ConditionKind) (subject : Nat) : Bool :=
  c.kind == kind && c.subject == subject

/-- The posting of a condition: a recurrence, a new entry, or the list-full flag (R177). -/
def Reports.post (r : Reports) (kind : ConditionKind) (subject : Nat) (detail : Int)
    (field : FieldNo) : Reports :=
  if r.conditions.any (·.isFor kind subject) then
    { r with
      conditions := r.conditions.map fun c =>
        if c.isFor kind subject then
          { c with last := field, detail := detail, count := min 255 (c.count + 1) }
        else c }
  else if r.conditions.length < 32 then
    { r with conditions := r.conditions ++ [⟨kind, subject, field, field, 1, detail⟩] }
  else { r with listFull := true }

/-- A condition posted in the field in progress (R177). -/
def State.postCondition (s : State) (kind : ConditionKind) (subject : Nat) (detail : Int) : State :=
  { s with reports := s.reports.post kind subject detail s.timing.field }

/-- Conditions of one subject posted in order. -/
def State.postConditions (s : State) (subject : Nat) : List (ConditionKind × Int) → State
  | [] => s
  | (kind, detail) :: rest => (s.postCondition kind subject detail).postConditions subject rest

/-- The posting of a notice: kept behind the others while fewer than 8 stand, else counted, with
NOTICE_OVERFLOW when the count rises from 0 (R176). -/
def Reports.notice (r : Reports) (n : Notice) (field : FieldNo) : Reports :=
  if r.notices.length < 8 then { r with notices := r.notices ++ [n] }
  else
    let r' := { r with overflow := min 255 (r.overflow + 1) }
    if r.overflow = 0 then r'.post .noticeOverflow 0 0 field else r'

/-- A notice posted (R176). -/
def State.postNotice (s : State) (tag : Tag) (kind : Nat) (reason : Reason) (subject : Nat) : State :=
  { s with reports := s.reports.notice ⟨tag, kind, reason, subject⟩ s.timing.field }

/-! ### Geometry of the formats -/

/-- W: pixels in a line (00 Picture geometry). -/
def width : Format → Nat
  | .interlaced1080 | .progressive1080 => 1920
  | .uhd2160 => 3840

/-- H: lines in a frame (00 Picture geometry). -/
def height : Format → Nat
  | .interlaced1080 | .progressive1080 => 1080
  | .uhd2160 => 2160

/-- Active lines of a field: H counted in field lines (chapter 1). -/
def activeLines : Format → Nat
  | .interlaced1080 => 540
  | .progressive1080 => 1080
  | .uhd2160 => 2160

/-- Nominal field length in lines (chapter 1). -/
def nominalLines : Format → Parity → Nat
  | .interlaced1080, false => 563
  | .interlaced1080, true => 562
  | .progressive1080, _ => 1125
  | .uhd2160, _ => 2250

/-- Nominal field period in ticks (chapter 1, log 5, log 7). -/
def nominalTicks (f : Format) (p : Parity) : Nat := nominalLines f p * Config.ticksPerLine

/-- The line length: sample places of a line (R185). -/
def lineLength (f : Format) : Nat := 2 * width f

/-- The line check word of a line's samples: the sum of its words modulo 512 in bits 0 to 8, bit 9 the
inverse of bit 8 (R185). Packets carry the same check over their words (R182). -/
def checkWord (words : List LinkWord) : LinkWord :=
  let sum := (words.foldl (fun a w => a + w.toNat) 0) % 512
  BitVec.ofNat 10 (if sum < 256 then sum + 512 else sum)

end Sys2Proof.Machine
end

