-- ==== Sys2Proof/Machine/Flags.lean ====
section
/-!
DEFINITION. The flags that a count drives: the hold flag of the Pending List (R34) and the overflow flag
of the path checker's counters (R168).
-/

namespace Sys2Proof.Machine

open Sys2Proof

/-- The Pending List after an insertion: at a depth of 48 or more a clear hold flag is set and
QUEUE_HOLD is recorded with the depth (R34). -/
def State.holdAfterInsertion (s : State) : State :=
  if 48 ≤ s.waiting.entries.length ∧ s.waiting.hold = false then
    { s with waiting := { s.waiting with hold := true } }.postCondition .queueHold 0
      s.waiting.entries.length
  else s

/-- The hold flag after a removal: a depth of 32 or less clears it (R34). -/
def PendingList.holdAfterRemoval (w : PendingList) : PendingList :=
  if w.entries.length ≤ 32 then { w with hold := false } else w

/-- A counter and the overflow flag after an addition (R168). -/
def addCounter (mode : CheckMode) (counter amount : Nat) (overflow : Bool) : Nat × Bool :=
  match mode with
  | .saturate => (min (counter + amount) 65535, overflow || decide (65535 < counter + amount))
  | .wrap => ((counter + amount) % 65536, overflow || decide (65535 < counter + amount))

end Sys2Proof.Machine
end

