-- ==== Sys2Proof/Machine/Generators.lean ====
section
/-!
DEFINITION. The Generators (chapter 9, R159 to R164): BLACK, the mattes, the bars, the TEST sequence,
and SET MATTE (R160). A picture is given sample by sample: the sample at a place of a field line, the
places in the order Cb, Y, Cr, Y of the pixel pairs (00 Samples).
-/

namespace Sys2Proof.Machine

open Sys2Proof

/-- The column of the pixel whose coefficients a place uses: a luma place's own pixel, a chroma place's
left pixel of the pair (00 Samples, R108). -/
def pixelOf (place : Nat) : Nat := 2 * (place / 4) + if place % 4 = 3 then 1 else 0

/-- The luma place of the pixel that a place uses. -/
def lumaPlace (place : Nat) : Nat := 4 * (place / 4) + if place % 4 = 3 then 3 else 1

/-- The component of a colour at a place. -/
def Colour.at (c : Colour) (place : Nat) : Nat :=
  if place % 4 = 0 then c.cb else if place % 4 = 2 then c.cr else c.y

/-- The BARS table (R162). -/
def barColour : Nat → Colour
  | 0 => ⟨721, 512, 512⟩
  | 1 => ⟨674, 176, 543⟩
  | 2 => ⟨581, 589, 176⟩
  | 3 => ⟨534, 253, 207⟩
  | 4 => ⟨251, 771, 817⟩
  | 5 => ⟨204, 435, 848⟩
  | 6 => ⟨111, 848, 481⟩
  | _ => ⟨64, 512, 512⟩

/-- The sample of BARS at a place (R162). -/
def barsSample (f : Format) (place : Nat) : Nat :=
  Colour.at (barColour (pixelOf place * 8 / width f)) place

/-- One step of the TEST sequence register (R163). -/
def testStep (r : Nat) : Nat :=
  (if 32768 ≤ 2 * r then 2 * r - 32768 else 2 * r) +
    if r / 16384 % 2 = r / 8192 % 2 then 0 else 1

/-- The register after `n` steps of a field, from its seed (R163). -/
def testRegister : Nat → Nat
  | 0 => 1
  | n + 1 => testStep (testRegister n)

/-- The TEST sample that a register value gives (R164). -/
def testValue (r : Nat) : Nat := 64 + r % 512

/-- The sample of TEST at a place of a field line (R163, R164). -/
def testSample (f : Format) (line place : Nat) : Nat :=
  testValue (testRegister (line * lineLength f + place + 1))

/-- The colour of a matte. -/
def State.matte (s : State) : Matte → Colour
  | .matte1 => s.generators.matte1
  | .matte2 => s.generators.matte2

/-- SET MATTE at its delivery (R160). -/
def State.deliverSetMatte (s : State) (m : Matte) (c : Colour) : State :=
  match m with
  | .matte1 => { s with generators := { s.generators with matte1 := c } }
  | .matte2 => { s with generators := { s.generators with matte2 := c } }

/-- The sample of a lane's substitute, taken from the generator directly (R11, R159). -/
def State.substituteSample (s : State) (x : Substitute) (place : Nat) : Nat :=
  match x with
  | .black => Colour.at Colour.black place
  | .matte1 => Colour.at s.generators.matte1 place
  | .matte2 => Colour.at s.generators.matte2 place

end Sys2Proof.Machine
end

