-- ==== Sys2Proof/Machine/Matrix.lean ====
section
/-!
DEFINITION. The Crosspoint Matrix (chapter 4): SELECT at its delivery (R61), the A/B exchange (R67) and
the bypass (R29, R69).
-/

namespace Sys2Proof.Machine

open Sys2Proof

/-- A bus takes a source. -/
def State.setBus (s : State) (b source : Nat) : State :=
  { s with matrix := { s.matrix with buses := put s.matrix.buses b source } }

/-- SELECT at its delivery: refused with SOURCE_DISABLED where the ACTIVE record is disabled, else the
bus takes the source (R49, R61). -/
def State.deliverSelect (s : State) (tag : Tag) (bus source : Nat) : State :=
  if (s.source source).enabled then s.setBus bus source
  else s.postNotice tag 1 .sourceDisabled bus

/-- Two buses with their numbers exchanged. -/
def exchangeBuses (buses : Vector Nat 20) (a b : Nat) : Vector Nat 20 :=
  put (put buses a (look buses b 0)) b (look buses a 0)

/-- The exchanges that an exchange count calls for: an even count leaves the two numbers as they were
(R67). -/
def exchangeTimes (buses : Vector Nat 20) (a b count : Nat) : Vector Nat 20 :=
  if count % 2 = 1 then exchangeBuses buses a b else buses

/-- The A/B exchanges of both banks, and the counts back to 0 (R67). -/
def Matrix.exchange (m : Matrix) : Matrix :=
  { m with
    buses := exchangeTimes (exchangeTimes m.buses 0 1 m.exchange1) 8 9 m.exchange2
    exchange1 := 0
    exchange2 := 0 }

/-- A background completion is recorded with the matrix (R67, R91). -/
def Matrix.recordCompletion (m : Matrix) : EngineId → Matrix
  | .me1 => { m with exchange1 := m.exchange1 + 1 }
  | .me2 => { m with exchange2 := m.exchange2 + 1 }
  | .dsk1 | .dsk2 | .ftb => m

/-- BYPASS at its arrival: the staged request is replaced (R29). -/
def State.stageBypass (s : State) (source : Option Nat) : State :=
  { s with matrix := { s.matrix with staged := some source } }

/-- At an output field start a staged request becomes the bypass state and is emptied (R69). -/
def Matrix.applyBypass (m : Matrix) : Matrix :=
  match m.staged with
  | some source => { m with bypass := source, staged := none }
  | none => m

end Sys2Proof.Machine
end

