-- ==== Sys2Proof/Machine/Engines.lean ====
section
/-!
DEFINITION. The transition engines (chapter 5): the latch (R78), completion (R90 to R94), the AUTO step
(R81), TAKE, CUT, HOLD and RESUME for one engine (R83 to R87), the lever (R95 to R100), force and
release (R101, R103), the next settings and selection (R76, R77), and the engines' part of ENGINE RESET
(R104).
-/

namespace Sys2Proof.Machine

open Sys2Proof

/-! ### What an engine drives -/

/-- The displayed coefficient q_d: the force value when forced, else q (R80). -/
def Engine.shown (x : Engine) : Nat := x.force.getD x.q

/-- The direction a key would be latched with: ON from off-air, OFF from on-air (R78). -/
def State.keyDirection (s : State) (n : Nat) : Direction := if (s.keyer n).onAir then .off else .on

/-- The elements that a run latched now would drive: the next selection of an M/E, a downstream
engine's one element, with the directions of this moment (R78, R82). -/
def State.nextElements (s : State) (e : EngineId) : Elements :=
  match e with
  | .me1 | .me2 =>
    { bkgd := (s.engine e).sel.bkgd
      keys := ((s.engine e).sel.keys e.firstKeyer).map fun n => (n, s.keyDirection n)
      fade := none }
  | .dsk1 | .dsk2 =>
    { bkgd := false, keys := [(e.firstKeyer, s.keyDirection e.firstKeyer)], fade := none }
  | .ftb =>
    { bkgd := false, keys := [], fade := some (if s.ftb = .clear then .toBlack else .fromBlack) }

/-- An M/E engine whose next selection is empty (R83, R85, R96). -/
def State.nothingNext (s : State) (e : EngineId) : Bool :=
  e.isMe && (s.engine e).sel == ⟨false, false, false, false⟩

/-- The run record that an engine latches (R78). -/
def State.latch (s : State) (e : EngineId) (driver : Driver) : RunRecord :=
  { elements := s.nextElements e
    settings := (s.engine e).next
    shape := if e.isMe then some (s.shape (s.engine e).next.shape) else none
    driver := driver }

/-! ### Completion -/

/-- The effective position p of a lever record (R95). -/
def LeverRecord.effective (r : LeverRecord) : Nat :=
  match r.sense with
  | .up => r.last
  | .down => 1024 - r.last

/-- The lever record after a completion: by the lever its sense flips (R97), which brings p to 0 and so
clears OFFSIDE; otherwise OFFSIDE is set where p is not 0 (R90, R99). -/
def LeverRecord.afterCompletion (r : LeverRecord) (byLever : Bool) : LeverRecord :=
  if byLever then
    { r with sense := (match r.sense with | .up => .down | .down => .up), offside := false }
  else if r.effective ≠ 0 then { r with offside := true }
  else r

/-- The engine with no run: IDLE with j = 0 and q = 0 (R75, R90). -/
def Engine.toIdle (x : Engine) : Engine := { x with state := .idle, j := 0, q := 0, run := none }

/-- The on-air flags of the key participants toggle (R92). -/
def toggleKeys (keyers : Vector Keyer 8) : List (Nat × Direction) → Vector Keyer 8
  | [] => keyers
  | (n, _) :: rest =>
    let k := look keyers n Keyer.reset
    toggleKeys (put keyers n { k with onAir := !k.onAir }) rest

/-- The FTB state after a completion (R93). -/
def FtbState.afterCompletion (f : FtbState) : Option Fade → FtbState
  | some .toBlack => .blacked
  | some .fromBlack => .clear
  | none => f

/-- A run completes: the completion effect of each participant, the run record discarded, the engine
IDLE, and the lever record as R90 gives it (R90 to R93). -/
def State.complete (s : State) (e : EngineId) (r : RunRecord) (byLever : Bool) : State :=
  { s with
    matrix := if r.elements.bkgd then s.matrix.recordCompletion e else s.matrix
    keyers := toggleKeys s.keyers r.elements.keys
    ftb := s.ftb.afterCompletion r.elements.fade
    engines :=
      s.engines.set e
        { (s.engine e).toIdle with lever := (s.engine e).lever.afterCompletion byLever } }

/-! ### TAKE, CUT, HOLD, RESUME, RELEASE for one engine -/

/-- TAKE for one engine (R83, R84). -/
def State.takeOne (tag : Tag) (s : State) (e : EngineId) : State :=
  match (s.engine e).state with
  | .idle =>
    if s.nothingNext e then s.postNotice tag 4 .emptyNext e.code
    else if (s.engine e).next.rate = 0 then s.complete e (s.latch e .auto) false
    else
      s.setEngine e
        { s.engine e with state := .auto, j := 0, q := 0, run := some (s.latch e .auto) }
  | .auto | .paused | .lever => s.postNotice tag 4 .busy e.code

/-- CUT for one engine (R85). -/
def State.cutOne (tag : Tag) (s : State) (e : EngineId) : State :=
  match (s.engine e).state with
  | .idle =>
    if s.nothingNext e then s.postNotice tag 5 .emptyNext e.code
    else s.complete e (s.latch e .auto) false
  | .auto | .paused | .lever =>
    match (s.engine e).run with
    | some r => s.complete e r false
    | none => s

/-- HOLD for one engine (R86). -/
def State.holdOne (tag : Tag) (s : State) (e : EngineId) : State :=
  match (s.engine e).state with
  | .auto => s.setEngine e { s.engine e with state := .paused }
  | .idle | .paused | .lever => s.postNotice tag 6 .notRunning e.code

/-- RESUME for one engine (R87). -/
def State.resumeOne (tag : Tag) (s : State) (e : EngineId) : State :=
  match (s.engine e).state with
  | .paused => s.setEngine e { s.engine e with state := .auto }
  | .idle | .auto | .lever => s.postNotice tag 7 .notRunning e.code

/-- RELEASE for one engine (R103). -/
def State.releaseOne (s : State) (e : EngineId) : State :=
  s.setEngine e { s.engine e with force := none }

/-- A command that names an engine set: decided for each engine of the set in order of engine number
(R37). -/
def State.forEngines (s : State) (set : EngineSet) (f : State → EngineId → State) : State :=
  EngineId.all.foldl (fun s e => if e.isIn set then f s e else s) s

/-! ### The lever -/

/-- LEVER to an engine in IDLE (R96): the record with the position stored. -/
def State.leverIdle (s : State) (tag : Tag) (e : EngineId) (stored : LeverRecord) : State :=
  let x := s.engine e
  if stored.effective = 0 then s.setEngine e { x with lever := { stored with offside := false } }
  else if stored.offside then s.setEngine e { x with lever := stored }
  else if s.nothingNext e then s.postNotice tag 9 .emptyNext e.code
  else
    let r := s.latch e .lever
    let s' :=
      s.setEngine e
        { x with state := .lever, j := 0, q := stored.effective, run := some r, lever := stored }
    if stored.effective = 1024 then s'.complete e r true else s'

/-- LEVER to an engine in LEVER (R97). -/
def State.leverRunning (s : State) (e : EngineId) (r : RunRecord) (stored : LeverRecord) : State :=
  let x := s.engine e
  if stored.effective = 0 then
    s.setEngine e { x.toIdle with lever := { stored with offside := false } }
  else
    let s' := s.setEngine e { x with q := stored.effective, lever := stored }
    if stored.effective = 1024 then s'.complete e r true else s'

/-- LEVER to an engine in AUTO or PAUSED: the pickup (R98). -/
def State.leverPickup (s : State) (e : EngineId) (r : RunRecord) (stored : LeverRecord) : State :=
  let x := s.engine e
  if x.q ≤ stored.effective ∧ 0 < stored.effective then
    let r' := { r with driver := .lever }
    let s' :=
      s.setEngine e
        { x with
          state := .lever, q := stored.effective, run := some r'
          lever := { stored with offside := false } }
    if stored.effective = 1024 then s'.complete e r' true else s'
  else if stored.effective = 0 then
    s.setEngine e { x with lever := { stored with offside := false } }
  else s.setEngine e { x with lever := stored }

/-- LEVER at its delivery (R95 to R99). -/
def State.deliverLever (s : State) (tag : Tag) (me : Me) (position : Nat) : State :=
  let e := me.engine
  let stored := { (s.engine e).lever with last := position }
  match (s.engine e).state, (s.engine e).run with
  | .idle, _ => s.leverIdle tag e stored
  | .lever, some r => s.leverRunning e r stored
  | .auto, some r => s.leverPickup e r stored
  | .paused, some r => s.leverPickup e r stored
  | _, none => s

/-! ### Settings, force, step and reset -/

/-- SET NEXT at its delivery (R77). -/
def State.deliverSetNext (s : State) (me : Me) (sel : NextSel) : State :=
  s.setEngine me.engine { s.engine me.engine with sel := sel }

/-- SET TRANSITION at its delivery: all seven settings of an M/E engine; of a downstream engine the
rate, and BAD_STYLE for a WIPE (R76). -/
def State.deliverSetTransition (s : State) (tag : Tag) (e : EngineId) (t : NextSettings) : State :=
  let x := s.engine e
  if e.isMe then s.setEngine e { x with next := t }
  else
    match t.style with
    | .wipe => s.postNotice tag 3 .badStyle e.code
    | .mix => s.setEngine e { x with next := { x.next with rate := t.rate } }

/-- FORCE at its delivery (R101). -/
def State.deliverForce (s : State) (e : EngineId) (value : Nat) : State :=
  s.setEngine e { s.engine e with force := some value }

/-- The AUTO step of one engine (R81). -/
def State.stepEngine (s : State) (e : EngineId) : State :=
  let x := s.engine e
  match x.state, x.run with
  | .auto, some r =>
    if x.j + 1 = r.settings.rate then s.complete e r false
    else s.setEngine e { x with j := x.j + 1, q := (x.j + 1) * 1024 / r.settings.rate }
  | _, _ => s

/-- The AUTO steps of a field (R81). -/
def State.stepEngines (s : State) : State := EngineId.all.foldl State.stepEngine s

/-- An engine at the delivery of an ENGINE RESET (R104). -/
def Engine.engineReset (x : Engine) : Engine :=
  { x.toIdle with force := none, lever := LeverRecord.reset }

/-- The engines at the delivery of an ENGINE RESET (R104). -/
def Engines.engineReset (es : Engines) : Engines :=
  ⟨es.me1.engineReset, es.me2.engineReset, es.dsk1.engineReset, es.dsk2.engineReset,
    es.ftb.engineReset⟩

/-- Every engine is IDLE (R8). -/
def Engines.allIdle (es : Engines) : Bool :=
  EngineId.all.all fun e => (es.get e).state == .idle

end Sys2Proof.Machine
end

