-- ==== Sys2Proof/Machine/Displays.lean ====
section
/-!
DEFINITION. What the engines hand to their banks and stages for a field (R82), the fade coefficients of
the keyers (R129) and of the fade to black (R138), and the look-ahead view (R147, R148).
-/

namespace Sys2Proof.Machine

open Sys2Proof

/-- What an engine presents to its bank or stage: elements with directions, the settings and the shape
record they are drawn with, and q_d (R82). -/
structure Drive where
  elements : Elements
  settings : NextSettings
  shape : ShapeRecord
  shown : Nat
deriving DecidableEq, Repr

/-- What an engine drives in the field: its run, or when IDLE and forced its next elements with the
next settings and the ACTIVE shape, or nothing (R82, R102). -/
def State.drive (s : State) (e : EngineId) : Option Drive :=
  let x := s.engine e
  match x.state, x.run with
  | .idle, _ =>
    if x.force.isSome then some ⟨s.nextElements e, x.next, s.shape x.next.shape, x.shown⟩ else none
  | _, some r => some ⟨r.elements, r.settings, r.shape.getD (s.shape r.settings.shape), x.shown⟩
  | _, none => none

/-- What an engine drives of its bank's background (R112). -/
def State.driveBackground (s : State) (e : EngineId) : Option Drive :=
  (s.drive e).filter (·.elements.bkgd)

/-- The engine of a keyer (R129). -/
def keyerEngine (n : Nat) : EngineId :=
  if n ≤ 2 then .me1 else if n ≤ 5 then .me2 else if n = 6 then .dsk1 else .dsk2

/-- The direction of a keyer among the keys of a set of elements. -/
def Elements.direction (x : Elements) (n : Nat) : Option Direction :=
  (x.keys.find? fun k => k.1 == n).map (·.2)

/-- The fade coefficient kf of a keyer's idle state (R129). -/
def State.idleFade (s : State) (n : Nat) : Nat := if (s.keyer n).onAir then 1024 else 0

/-- The fade coefficient of a keyer (R129). -/
def State.keyFade (s : State) (n : Nat) : Nat :=
  match s.drive (keyerEngine n) with
  | none => s.idleFade n
  | some d =>
    match d.elements.direction n with
    | some .on => d.shown
    | some .off => 1024 - d.shown
    | none => s.idleFade n

/-- The fade coefficient f of the fade to black (R138). -/
def State.ftbFade (s : State) : Nat :=
  match s.drive .ftb with
  | some d =>
    match d.elements.fade with
    | some .toBlack => d.shown
    | some .fromBlack => 1024 - d.shown
    | none => if s.ftb = .blacked then 1024 else 0
  | none => if s.ftb = .blacked then 1024 else 0

/-- The look-ahead view of a bank: the participants of its run as latched, or when IDLE its next
selection; the force is not read (R147). -/
def State.lookAhead (s : State) (e : EngineId) : Elements :=
  match (s.engine e).state, (s.engine e).run with
  | .idle, _ => s.nextElements e
  | _, some r => r.elements
  | _, none => ⟨false, [], none⟩

/-- The look-ahead fade coefficient of a keyer of a bank (R148). -/
def State.aheadFade (s : State) (n : Nat) : Nat :=
  match (s.lookAhead (keyerEngine n)).direction n with
  | some .on => 1024
  | some .off => 0
  | none => s.idleFade n

end Sys2Proof.Machine
end

