-- ==== Sys2Proof/Machine/Wipe.lean ====
section
/-!
DEFINITION. Wipe pattern arithmetic (chapter 6): normalised coordinates (R108), the wipe distance
(R109 to R111), the front and the background coefficients (R113, R114, R116), the key mask (R118).
-/

namespace Sys2Proof.Machine

open Sys2Proof

/-- The normalised column u of a pixel (R108). -/
def normalColumn (f : Format) (x : Nat) : Nat := x * 4096 / width f

/-- The frame line y of a field line (00 Picture geometry). -/
def frameLine (f : Format) (p : Parity) (line : Nat) : Nat :=
  if f.interlaced then 2 * line + p.toNat else line

/-- The normalised line v of a field line (R108). -/
def normalLine (f : Format) (p : Parity) (line : Nat) : Nat :=
  frameLine f p line * 4096 / height f

/-- |x − y| of two numbers. -/
def distance (x y : Nat) : Nat := if x ≤ y then y - x else x - y

/-- The wipe distance r of a point (R109, R110). -/
def wipeDistance (r : ShapeRecord) (u v : Nat) : Nat :=
  match r.kind with
  | .horizontal => u
  | .vertical => v
  | .diagonal => (u + v) / 2
  | .box => min 4095 (2 * max (distance u r.cu) (distance v r.cv * r.aspect / 16))
  | .diamond => min 4095 (distance u r.cu + distance v r.cv * r.aspect / 16)

/-- The distance under the reverse setting (R111). -/
def reversed (reverse : Bool) (r : Nat) : Nat := if reverse then 4095 - r else r

/-- The wipe front T (R113). -/
def wipeFront (shown border softness : Nat) : Nat := shown * (4096 + border + softness) / 1024

/-- The A/B coefficient and the border coefficient of a pixel (R114, R116). -/
structure BackgroundCoefficients where
  ab : Nat
  bd : Nat
deriving DecidableEq, Repr

/-- The coefficients of a pixel at distance `r` from a front `t` (R114). -/
def wipeCoefficients (t r border softness : Nat) : BackgroundCoefficients :=
  if t ≤ r then ⟨0, 0⟩
  else if t - r ≤ softness then
    if border = 0 then ⟨(t - r) * 1024 / (softness + 1), 0⟩
    else ⟨0, (t - r) * 1024 / (softness + 1)⟩
  else if t - r ≤ softness + border then ⟨1024, 1024⟩
  else ⟨1024, 0⟩

/-- The background coefficients of a driven background at a point (R113 to R116). -/
def Drive.coefficients (d : Drive) (u v : Nat) : BackgroundCoefficients :=
  match d.settings.style with
  | .mix => ⟨d.shown, 0⟩
  | .wipe =>
    wipeCoefficients (wipeFront d.shown d.settings.border d.settings.softness)
      (reversed d.settings.reverse (wipeDistance d.shape u v)) d.settings.border d.settings.softness

/-- The background coefficients of a bank at a point: 0 and 0 where its background is not driven
(R112). -/
def State.backgroundCoefficients (s : State) (e : EngineId) (u v : Nat) : BackgroundCoefficients :=
  match s.driveBackground e with
  | some d => d.coefficients u v
  | none => ⟨0, 0⟩

/-- The mask coefficient m of key settings at a point (R118). -/
def State.mask (s : State) (k : KeySettings) (u v : Nat) : Nat :=
  match k.maskShape with
  | none => 1024
  | some n =>
    let m := if wipeDistance (s.shape n) u v ≤ k.maskSize then 1024 else 0
    if k.maskInvert then 1024 - m else m

/-- An inverted full mask: a shape, size 4095, mask invert on (R119). -/
def KeySettings.invertedFullMask (k : KeySettings) : Bool :=
  k.maskShape.isSome && k.maskSize == 4095 && k.maskInvert

end Sys2Proof.Machine
end

