-- ==== Sys2Proof/Machine/Keyers.lean ====
section
/-!
DEFINITION. The mix of two samples (R123) and the key chain (R124 to R130), and SET KEY (R122).
-/

namespace Sys2Proof.Machine

open Sys2Proof

/-- M(P, Q, k) (R123). -/
def mix (p q k : Nat) : Nat := (p * (1024 - k) + q * k + 512) / 1024

/-- Derivation of the key coefficient from the key source luma (R124, R125). -/
def deriveKey (k : KeySettings) (luma : Nat) : Nat :=
  match k.type with
  | .luma => if luma ≤ k.clip then 0 else min 1024 (((luma - k.clip) * k.gain + 8) / 16)
  | .linear => ((clamp luma 64 940 - 64) * 1024 + 438) / 876

/-- Point T[i] of a curve. -/
def curvePoint (c : Curve) (i : Nat) : Nat := look c i 0

/-- The curve stage (R126); the division is floored, also below 0. -/
def curveKey (c : Curve) (a : Nat) : Nat :=
  if a = 1024 then curvePoint c 32
  else
    let i := a / 32
    let f := a - 32 * i
    ((curvePoint c i : Int) +
      (((curvePoint c (i + 1) : Int) - (curvePoint c i : Int)) * (f : Int) + 16) / 32).toNat

/-- The invert stage (R127). -/
def invertKey (invert : Bool) (a : Nat) : Nat := if invert then 1024 - a else a

/-- The mask stage and the fade stage (R128, R130). -/
def scaleKey (a m : Nat) : Nat := (a * m + 512) / 1024

/-- The key chain of R124 to R130, from the key source luma, the mask coefficient and the fade
coefficient. -/
def keyChain (k : KeySettings) (c : Curve) (luma m kf : Nat) : Nat :=
  scaleKey (scaleKey (invertKey k.invert (curveKey c (deriveKey k luma))) m) kf

/-- SET KEY at its delivery: all eight settings, the on-air flag kept (R122). -/
def State.deliverSetKey (s : State) (n : Nat) (k : KeySettings) : State :=
  { s with keyers := put s.keyers n { s.keyer n with settings := k } }

end Sys2Proof.Machine
end

