-- ==== Sys2Proof/Machine/Outputs.lean ====
section
/-!
DEFINITION. The pictures of a field, as functions of the state that stands for it: what a lane delivers
(R11), the steps of R63 for a source, the banks (R115, R131, R133), the downstream stage (R137, R139),
the look-ahead (R148), what the field in progress shows (R63, R74) and the five outputs (R144 to R151),
and SET MONITOR (R150).
-/

namespace Sys2Proof.Machine

open Sys2Proof

/-- A sample of a picture. One that is not `filled` is drawn from a place that a short bad line does not
fill (R16, R165): its value is free (log 18). -/
structure Sample where
  value : Nat
  filled : Bool
deriving DecidableEq, Repr

/-- A sample of a value. -/
def Sample.of (value : Nat) : Sample := ⟨value, true⟩

/-- The mix of two samples (R123). At coefficient 0 it is drawn from the first alone and at 1024 from the
second alone; between them a place that either leaves unfilled is unfilled (log 18). -/
def Sample.mix (p q : Sample) (k : Nat) : Sample :=
  ⟨Machine.mix p.value q.value k, (p.filled || k == 1024) && (q.filled || k == 0)⟩

/-- A picture: the sample at a place of a field line. -/
abbrev Picture := Nat → Nat → Sample

/-- A colour at every place. -/
def plainPicture (c : Colour) : Picture := fun _ place => .of (Colour.at c place)

/-- BLACK at every place. -/
def blackPicture : Picture := plainPicture Colour.black

/-! ### Sources (R63) -/

/-- A place of the field as lane `n` delivers it: `none` where a line of its own picture is short of
that place. Own lines that are not there are replaced by the substitute (R11). -/
def State.laneSample? (s : State) (n line place : Nat) : Option Nat :=
  let l := s.lane n
  if l.decision.own then
    match l.pictureCurrent[line]? with
    | some samples => (samples[place]?).map (·.toNat)
    | none => some (s.substituteSample l.settings.substitute place)
  else some (s.substituteSample l.settings.substitute place)

/-- The picture a lane delivers; a place that a short line does not fill is a free value (log 18). -/
def State.lanePicture (s : State) (n : Nat) : Picture := fun line place =>
  match s.laneSample? n line place with
  | some value => .of value
  | none => ⟨(Config.unfilledSample s.free n line place).toNat, false⟩

/-- A source's own picture for the field, ME1's and ME2's outputs given (step 2 of R63, R151). -/
def State.rawPicture (s : State) (me1 me2 : Picture) (source : Nat) : Picture := fun line place =>
  if source = 0 then blackPicture line place
  else if source ≤ 24 then s.lanePicture source line place
  else if source = 25 then plainPicture s.generators.matte1 line place
  else if source = 26 then plainPicture s.generators.matte2 line place
  else if source = 27 then .of (barsSample s.timing.format place)
  else if source = 28 then .of (testSample s.timing.format line place)
  else if source = 29 then me1 line place
  else me2 line place

/-- Legalise: luma to 64 to 940, chroma to 64 to 960 (R65). -/
def legalise (place sample : Nat) : Nat :=
  if place % 2 = 1 then clamp sample 64 940 else clamp sample 64 960

/-- The steps of R63 for a source: BLACK where it is disabled, its own picture, legalised where its
ACTIVE record says so. -/
def State.sourcePicture (s : State) (me1 me2 : Picture) (source : Nat) : Picture := fun line place =>
  let r := s.source source
  if r.enabled then
    let x := s.rawPicture me1 me2 source line place
    if r.legalise then { x with value := legalise place x.value } else x
  else blackPicture line place

/-! ### Banks -/

/-- The normalised coordinates of the pixel a place uses (R108). -/
def State.coordinates (s : State) (line place : Nat) : Nat × Nat :=
  (normalColumn s.timing.format (pixelOf place),
    normalLine s.timing.format s.timing.parity line)

/-- The background of a bank from the pictures of its A and B buses (R112, R115, R116). -/
def State.background (s : State) (e : EngineId) (a b : Picture) : Picture := fun line place =>
  let uv := s.coordinates line place
  let k := s.backgroundCoefficients e uv.1 uv.2
  let matte : Matte := match s.driveBackground e with
    | some d => d.settings.matte
    | none => .matte1
  Sample.mix (Sample.mix (a line place) (b line place) k.ab) (plainPicture (s.matte matte) line place) k.bd

/-- A keyer's output over the picture beneath it, from its fill and key source at a fade coefficient
(R131). -/
def State.keyOver (s : State) (n kf : Nat) (fill keySource under : Picture) : Picture :=
  fun line place =>
    let k := (s.keyer n).settings
    let uv := s.coordinates line place
    let alpha :=
      keyChain k (s.curve k.curve) (keySource line (lumaPlace place)).value (s.mask k uv.1 uv.2) kf
    Sample.mix (under line place) (fill line place) alpha

/-- The fill bus of a keyer; its key source bus is the next one (R121). -/
def fillBus (n : Nat) : Nat :=
  if n ≤ 2 then 2 + 2 * n else if n ≤ 5 then 10 + 2 * (n - 3) else 16 + 2 * (n - 6)

/-- A keyer laid over a picture, its fill and key source from the pictures of the buses. -/
def State.layKey (s : State) (bus : Nat → Picture) (n kf : Nat) (under : Picture) : Picture :=
  s.keyOver n kf (bus (fillBus n)) (bus (fillBus n + 1)) under

/-- The three keyers of a bank, `first` its K1, laid in order at given fade coefficients (R133). -/
def State.layBank (s : State) (bus : Nat → Picture) (first : Nat) (kf : Nat → Nat)
    (under : Picture) : Picture :=
  s.layKey bus (first + 2) (kf (first + 2))
    (s.layKey bus (first + 1) (kf (first + 1)) (s.layKey bus first (kf first) under))

/-- The pictures of ME1's buses. No ME1 bus holds 29 or 30 (R60); one that did would carry BLACK
(log 30). -/
def State.me1Bus (s : State) (b : Nat) : Picture :=
  s.sourcePicture blackPicture blackPicture (s.bus b)

/-- Bank 1's output (R133, R134, R146). -/
def State.me1Output (s : State) : Picture :=
  s.layBank s.me1Bus 0 s.keyFade (s.background .me1 (s.me1Bus 0) (s.me1Bus 1))

/-- The pictures of ME2's and the downstream buses: a bus that holds 29 carries ME1's output of the
same field (R64). -/
def State.me2Bus (s : State) (b : Nat) : Picture :=
  s.sourcePicture s.me1Output blackPicture (s.bus b)

/-- Bank 2's output (R133, R134). -/
def State.me2Output (s : State) : Picture :=
  s.layBank s.me2Bus 3 s.keyFade (s.background .me2 (s.me2Bus 8) (s.me2Bus 9))

/-! ### Downstream stage and outputs -/

/-- DSK1 and DSK2 laid over a picture (R137). -/
def State.layDownstream (s : State) (under : Picture) : Picture :=
  s.layKey s.me2Bus 7 (s.keyFade 7) (s.layKey s.me2Bus 6 (s.keyFade 6) under)

/-- The fade to black of a picture (R139). -/
def State.fadeToBlack (s : State) (p : Picture) : Picture := fun line place =>
  Sample.mix (p line place) (blackPicture line place) s.ftbFade

/-- A picture under the bypass state: the bypass source by the steps of R63, or the composed picture
(R70, R140, R145). -/
def State.underBypass (s : State) (composed : Picture) : Picture :=
  match s.matrix.bypass with
  | some source => s.sourcePicture s.me1Output blackPicture source
  | none => composed

/-- PGM (R145). -/
def State.pgm (s : State) : Picture := s.underBypass (s.fadeToBlack (s.layDownstream s.me2Output))

/-- CLEAN (R145). -/
def State.clean (s : State) : Picture := s.underBypass (s.fadeToBlack s.me2Output)

/-- The look-ahead picture of a bank: B whole where BKGD is a look-ahead element, else A, with the
keys at their look-ahead fade coefficients (R148). -/
def State.lookAheadPicture (s : State) (e : EngineId) (bus : Nat → Picture) (busA first : Nat) :
    Picture :=
  s.layBank bus first s.aheadFade
    (if (s.lookAhead e).bkgd then bus (busA + 1) else bus busA)

/-- PVW: bank 2's look-ahead with the downstream keys at their displayed strength (R149). -/
def State.pvw (s : State) : Picture := s.layDownstream (s.lookAheadPicture .me2 s.me2Bus 8 3)

/-- ME1-LOOKAHEAD (R151). -/
def State.me1LookAhead (s : State) : Picture := s.lookAheadPicture .me1 s.me1Bus 0 0

/-- MON (R151). -/
def State.monPicture (s : State) : Picture :=
  match s.mon with
  | .pgm => s.pgm
  | .clean => s.clean
  | .pvw => s.pvw
  | .me1 => s.me1Output
  | .me1LookAhead => s.me1LookAhead
  | .source n => s.sourcePicture s.me1Output s.me2Output n

/-! ### What the field in progress shows (R63, R74, R144) -/

/-- The state from which the pictures of the field are formed is taken: the deliveries, steps and
exchanges of the field are done (R63, R144). -/
def State.takePicture (s : State) : State :=
  { s with
    picture :=
      { buses := s.matrix.buses
        bypass := s.matrix.bypass
        shapes := s.tables.shapes
        curves := s.tables.curves
        sources := s.tables.sources
        engines := s.engines
        keyers := s.keyers
        ftb := s.ftb
        mon := s.mon
        matte1 := s.generators.matte1
        matte2 := s.generators.matte2
        substitutes := s.lanes.map (·.settings.substitute) } }

/-- The state as the field in progress shows it: what its pictures are formed from stands as it was taken
at its field start, whatever has been delivered since (R74, log 3, log 22). -/
def State.asShown (s : State) : State :=
  { s with
    matrix := { s.matrix with buses := s.picture.buses, bypass := s.picture.bypass }
    tables :=
      { s.tables with
        shapes := s.picture.shapes, curves := s.picture.curves, sources := s.picture.sources }
    engines := s.picture.engines
    keyers := s.picture.keyers
    ftb := s.picture.ftb
    mon := s.picture.mon
    generators :=
      { s.generators with matte1 := s.picture.matte1, matte2 := s.picture.matte2 }
    lanes :=
      changeAll
        (fun i l =>
          { l with
            settings := { l.settings with substitute := look s.picture.substitutes i .black } })
        s.lanes }

/-- The output lanes (R144). -/
inductive OutputLane where
  | pgm | clean | pvw | me1 | mon
deriving DecidableEq, Repr

/-- A number for an output lane, by which a free blanking sample is its own on each (log 23). -/
def OutputLane.code : OutputLane → Nat
  | .pgm => 0
  | .clean => 1
  | .pvw => 2
  | .me1 => 3
  | .mon => 4

/-- The picture that an output lane carries in a field formed from this state (R144 to R151). -/
def State.outputPicture (s : State) : OutputLane → Picture
  | .pgm => s.pgm
  | .clean => s.clean
  | .pvw => s.pvw
  | .me1 => s.me1Output
  | .mon => s.monPicture

/-- The active sample that an output lane carries in the field in progress; BLACK from the start of a
POWER or PIN reset to output field start 0 (R7, R74, R144 to R151). -/
def State.outputSample (s : State) (o : OutputLane) : Picture :=
  if s.timing.started then s.asShown.outputPicture o else blackPicture

/-- The words of the report packets in MON's blanking, one for each Y place from the first report word
on; the Y places that hold no report packet carry 64 (R182, log 23). -/
def State.blankingWord (s : State) (n : Nat) : Nat :=
  ((s.packets.flatten[n]?).map (·.toNat)).getD 64

/-- The sample at a place of a line of an output lane: active lines first, then the blanking (R185); up
to field 0 BLACK at every place of either (R7). Of the blanking the manual states MON's Y places alone;
the rest are free values, each lane's its own (log 23). -/
def State.lineSample (s : State) (o : OutputLane) (line place : Nat) : Nat :=
  if s.timing.started = false ∨ line < activeLines s.timing.format then
    (s.outputSample o line place).value
  else if o = .mon ∧ place % 2 = 1 then
    s.blankingWord
      ((line - activeLines s.timing.format) * width s.timing.format + place / 2)
  else (Config.blankingSample s.free o.code line place).toNat

/-- A line of an output lane, with the check word the part forms at its end (R185). -/
def State.outputLine (s : State) (o : OutputLane) (line : Nat) : List LinkWord × LinkWord :=
  let words :=
    (List.range (lineLength s.timing.format)).map fun k => BitVec.ofNat 10 (s.lineSample o line k)
  (words, checkWord words)

/-- SET MONITOR at its delivery (R150). -/
def State.deliverSetMonitor (s : State) (point : MonPoint) : State := { s with mon := point }

end Sys2Proof.Machine
end

