-- ==== Sys2Proof/Machine/Checker.lean ====
section
/-!
DEFINITION. The path checker (chapter 9, R165 to R170): the comparison with TEST, the judgment, and
CHECKER and SNAPSHOT at their delivery.
-/

namespace Sys2Proof.Machine

open Sys2Proof

/-- The sample at the checker's point (R165). -/
def State.checkedSample (s : State) : Picture :=
  match s.checker.point with
  | .pgm => s.outputSample .pgm
  | .clean => s.outputSample .clean
  | .pvw => s.outputSample .pvw
  | .me1 => s.outputSample .me1
  | .mon => s.outputSample .mon
  | .lane n => s.asShown.lanePicture n

/-- The samples of a field (R165). -/
def fieldSamples (f : Format) : Nat := lineLength f * activeLines f

/-- The samples that do not match, over `count` samples from sample `k` of the field on; `register` is
the TEST register before the step of sample `k`. A place that a short bad line does not fill never
matches (R163, R165, log 18). -/
def mismatchesFrom (sample : Nat → Sample) : (count k register : Nat) → Nat
  | 0, _, _ => 0
  | count + 1, k, register =>
    (if sample k = .of (testValue (testStep register)) then 0 else 1) +
      mismatchesFrom sample count (k + 1) (testStep register)

/-- M: the samples of the field at the checker's point that do not match (R165, R167). -/
def State.mismatches (s : State) : Nat :=
  mismatchesFrom
    (fun k => s.checkedSample (k / lineLength s.timing.format) (k % lineLength s.timing.format))
    (fieldSamples s.timing.format) 0 1

/-- The checker after counting a field with `m` mismatches in LOCKED: back to SEEKING where more than
half of the `samples` do not match (R167, R168). -/
def Checker.count (c : Checker) (samples m : Nat) : Checker :=
  let checked := addCounter c.mode c.checked 1 c.overflow
  let errored := addCounter c.mode c.errored m checked.2
  let fields := if 0 < m then addCounter c.mode c.erroredFields 1 errored.2 else (c.erroredFields, errored.2)
  { c with
    checked := checked.1, errored := errored.1, erroredFields := fields.1, overflow := fields.2
    state := if samples < 2 * m then .seeking else .locked }

/-- A judgment in LOCKED: the field is counted, and CHECKER_ERROR recorded where a sample does not match
(R167). -/
def State.countField (s : State) (m : Nat) : State :=
  let s' := { s with checker := s.checker.count (fieldSamples s.timing.format) m }
  if 0 < m then s'.postCondition .checkerError 0 (min m 32767) else s'

/-- The judgment of the field in progress (R166); before field 0 there is none (R7, log 25). It takes all
the samples of the field whenever the row comes, and as often as it comes, also in a field that the
alignment of R5 ends before its active picture is over: the model's choice (log 41). -/
def State.judgeField (s : State) : State :=
  if s.timing.started then
    match s.checker.state with
    | .idle => s
    | .seeking =>
      if s.mismatches = 0 then { s with checker := { s.checker with state := .locked } } else s
    | .locked => s.countField s.mismatches
  else s

/-- The counters at 0 and the overflow flag clear. -/
def Checker.zeroed (c : Checker) : Checker :=
  { c with checked := 0, errored := 0, erroredFields := 0, overflow := false }

/-- CHECKER START at its delivery (R169). -/
def State.deliverCheckerStart (s : State) (point : CheckPoint) (mode : CheckMode) : State :=
  { s with checker := { s.checker.zeroed with state := .seeking, point := point, mode := mode } }

/-- CHECKER STOP at its delivery (R169). -/
def State.deliverCheckerStop (s : State) : State :=
  { s with checker := { s.checker with state := .idle } }

/-- The snapshot record of this moment, in field `n` (R170). -/
def Checker.record (c : Checker) (n : FieldNo) : Snapshot :=
  ⟨c.state, c.checked, c.errored, c.erroredFields, c.overflow, n⟩

/-- SNAPSHOT KEEP at its delivery (R170). -/
def State.deliverSnapshotKeep (s : State) : State :=
  { s with checker := { s.checker with snapshot := some (s.checker.record s.timing.field) } }

/-- SNAPSHOT CLEAR at its delivery (R170). -/
def State.deliverSnapshotClear (s : State) : State :=
  { s with checker := { s.checker.zeroed with snapshot := some (s.checker.record s.timing.field) } }

/-- The checker at the delivery of an ENGINE RESET: IDLE, zeroed, no snapshot, point and mode kept
(R172). -/
def Checker.engineReset (c : Checker) : Checker :=
  { c.zeroed with state := .idle, snapshot := none }

end Sys2Proof.Machine
end

