-- ==== Sys2Proof/Machine/Lanes.lean ====
section
/-!
DEFINITION. The Lane Receivers (chapter 1, R9 to R21): the measure of a lane field start, its judgement
in SEEK, TIMED and UNTIMED, the line check, the missed-field watch, the delivery decision, and the
effects of SET LANE and RESEEK.
-/

namespace Sys2Proof.Machine

open Sys2Proof

/-! ### Measuring a lane field start (R9) -/

/-- The lateness d of a lane field start taken `elapsed` whole line periods into an output field of
nominal length `length` (R9). -/
def measuredLateness (length elapsed : Nat) : Int :=
  if 2 * elapsed < length then (elapsed : Int) else (elapsed : Int) - (length : Int)

/-- Whether such a start is matched with the next output field (R9). -/
def matchesNext (length elapsed : Nat) : Bool := !decide (2 * elapsed < length)

/-! ### Judging a lane field start (R12 to R15) -/

/-- What a judgement gives: the lane record, the conditions it records, and whether the lane field that
this start opens may be delivered (taken in TIMED with no slip, R11). -/
structure Judgement where
  lane : Lane
  posts : List (ConditionKind × Int)
  own : Bool
deriving DecidableEq, Repr

/-- The length of the lane field just ended minus the nominal length (R13). -/
def Lane.lengthError (l : Lane) (f : Format) : Int := (l.lines : Int) - (nominalLines f l.openParity : Int)

/-- A lane field of incorrect length in SEEK or UNTIMED: the match restarts, LANE_FORMAT once per
stretch (R13, R15). -/
def Lane.wrongLength (l : Lane) (f : Format) : Judgement :=
  { lane := { l with matchCount := 0, mismatch := true }
    posts := if l.mismatch then [] else [(.laneFormat, l.lengthError f)]
    own := false }

/-- The lane enters TIMED at lateness `d`: this lane field is the first one delivered (R13, R15). The manual
gives the match count no value in TIMED; that it returns to 0 is the model's choice (log 43). -/
def Lane.enterTimed (l : Lane) (d : Int) : Judgement :=
  { lane := { l with state := .timed, lateness := d, delay := (16 - d).toNat, matchCount := 0 }
    posts := []
    own := true }

/-- The lane enters UNTIMED, with LANE_UNTIMED (R13, R14). -/
def Lane.enterUntimed (l : Lane) (d : Int) : Judgement :=
  { lane := { l with state := .untimed, matchCount := 0 }
    posts := [(.laneUntimed, d)]
    own := false }

/-- A lane field that qualifies as a first (R13). -/
def Lane.qualifyFirst (l : Lane) (d : Int) : Judgement :=
  { lane := { l with candidate := d, matchCount := 1, mismatch := false }, posts := [], own := false }

/-- The judgement in SEEK (R13). -/
def Lane.judgeSeek (l : Lane) (f : Format) (d : Int) : Judgement :=
  if l.lengthError f ≠ 0 then l.wrongLength f
  else if l.matchCount = 0 ∨ l.candidate ≠ d then l.qualifyFirst d
  else if d.natAbs ≤ l.settings.window then l.enterTimed d
  else l.enterUntimed d

/-- The judgement in UNTIMED: as in SEEK, but only a lateness within the window counts as a first, and a
second outside the window records nothing (R15). A correct length ends the stretch of mismatch also
outside the window (log 36). -/
def Lane.judgeUntimed (l : Lane) (f : Format) (d : Int) : Judgement :=
  if l.lengthError f ≠ 0 then l.wrongLength f
  else if ¬ d.natAbs ≤ l.settings.window then
    { lane := { l with matchCount := 0, mismatch := false }, posts := [], own := false }
  else if l.matchCount = 0 ∨ l.candidate ≠ d then l.qualifyFirst d
  else l.enterTimed d

/-- A pending slip is applied: the delay of the lateness in use (first row of R14). -/
def Lane.applySlip (l : Lane) : Lane :=
  if l.slip then { l with delay := (16 - l.lateness).toNat, slip := false } else l

/-- The rows of R14 below the first, for a lane in TIMED; `again` says that the start is matched with an
output field that already has a matched lane field of this lane. The manual does not say whether the
LANE_FORMAT of that row sets the mismatch flag; the model leaves the flag as it was (log 46). -/
def Lane.judgeTimedRows (l : Lane) (f : Format) (d : Int) (again : Bool) : Judgement :=
  if ¬ d.natAbs ≤ l.settings.window then l.enterUntimed d
  else if again then
    { lane := { l with state := .seek, matchCount := 0 }
      posts := [(.laneFormat, l.lengthError f)]
      own := false }
  else if d = l.lateness then { lane := l, posts := [], own := true }
  else
    { lane := { l with lateness := d, slip := true }
      posts := [(.laneSlip, d - l.lateness)]
      own := false }

/-- The judgement in TIMED (R14). -/
def Lane.judgeTimed (l : Lane) (f : Format) (d : Int) (again : Bool) : Judgement :=
  l.applySlip.judgeTimedRows f d again

/-- A start that only begins the first lane field to be judged: from DOWN (R12), or the first after a
RESEEK or a format change (R20). -/
def Lane.judgeOpening (l : Lane) : Judgement :=
  { lane := { l with state := .seek, matchCount := 0, mismatch := false }, posts := [], own := false }

/-- A lane field start acted on by the lane's state (R12 to R15, R20). -/
def Lane.judge (l : Lane) (f : Format) (d : Int) (again : Bool) : Judgement :=
  match l.state with
  | .down => l.judgeOpening
  | .seek => if l.unjudged then l.judgeOpening else l.judgeSeek f d
  | .timed => l.judgeTimed f d again
  | .untimed => l.judgeUntimed f d

/-- Whether a match already there may be delivered. It then stays, as at most one lane field of a lane is
delivered for each output field (R9); else the new one stands (log 15). -/
def hasOwn (old : Option LaneMatch) : Bool := old.any (·.own)

/-- What every lane field start does to the record beside its judgement: the counts return to 0, the
limit and the chroma swap in force are taken (R16, R18), and the lane field is matched (R9). -/
def Lane.opened (l : Lane) (m : LaneMatch) (toNext : Bool) (openParity : Parity) : Lane :=
  let l' :=
    { l with
      bad := 0, lines := 0, unjudged := false, seen := true, openParity := openParity
      limitInForce := l.settings.limit, swapInForce := l.settings.swap }
  if toNext then
    if hasOwn l.matchedNext then { l' with target := .next, stored := false }
    else { l' with matchedNext := some m, target := .next, stored := true, pictureNext := [] }
  else
    if hasOwn l.matchedCurrent then { l' with target := .current, stored := false }
    else { l' with matchedCurrent := some m, target := .current, stored := true, pictureCurrent := [] }

/-- The delivery decision for the output field in progress: on the matched lane field where there is
one, else on the lane's state with its substitute (R11). -/
def Lane.decide (l : Lane) : Lane :=
  { l with decision := l.matchedCurrent.getD ⟨l.state, false⟩ }

/-- The lane record after a lane field start (R9 to R16). A lane field matched with the output field in
progress is deliverable only where it started no later than the presentation point. The decision is taken
again, which after the presentation point changes only the state that STATUS reports: that after the
matched lane field start, also where it comes after the point (R11, log 15). -/
def Lane.afterStart (l : Lane) (t : Timing) (elapsed : Nat) : Judgement :=
  let length := nominalLines t.format t.parity
  let toNext := matchesNext length elapsed
  let again := (if toNext then l.matchedNext else l.matchedCurrent).isSome
  let v := l.judge t.format (measuredLateness length elapsed) again
  let m : LaneMatch := ⟨v.lane.state, v.own && (toNext || !t.presented)⟩
  let l' := v.lane.opened m toNext (if toNext then t.nextParity else t.parity)
  { v with lane := if t.presented && toNext then l' else l'.decide }

/-- At each lane-C field start the taken count and the dropped count return to 0 (R23). -/
def State.resetControlCounts (s : State) : State :=
  { s with receiver := { s.receiver with taken := 0, dropped := 0 } }

/-- A lane field start is taken (R9). A number that names no lane has no effect (log 29). A lane-C field
start does not itself end the blanking of the lane field before: a packet in reception stays, where the lane
still takes packets, up to the row CONTROL_BLANKING_END, and the order of the two rows is that of the queue,
the model's choice (log 47). -/
def State.laneFieldStart (s : State) (n elapsed : Nat) : State :=
  if isLane n then
    let v := (s.lane n).afterStart s.timing elapsed
    let s' := (s.setLane n v.lane).postConditions n v.posts
    if n = laneC then s'.resetControlCounts else s'
  else s

/-! ### Lines (R16) -/

/-- A received line is bad when its length is not the line length of the format or its check word does
not agree (R16, R185). -/
def badLine (f : Format) (samples : Line) (check : LinkWord) : Bool :=
  samples.length != lineLength f || check != checkWord samples

/-- Chroma swap: Cb and Cr of every pixel pair exchanged (R10). Where a short bad line ends in an
incomplete pair, fewer than four samples, that rest stays as received: the model's choice (log 37). -/
def swapChroma : Line → Line
  | cb :: y :: cr :: y' :: rest => cr :: y :: cb :: y' :: swapChroma rest
  | rest => rest

/-- An active line of the lane field in progress enters the alignment buffer (R10, R185, log 17). -/
def Lane.store (l : Lane) (f : Format) (samples : Line) : Lane :=
  if l.stored = true ∧ l.lines < activeLines f then
    let line := if l.swapInForce then swapChroma samples else samples
    match l.target with
    | .current => { l with pictureCurrent := l.pictureCurrent ++ [line] }
    | .next => { l with pictureNext := l.pictureNext ++ [line] }
    | .past => l
  else l

/-- The lane goes to SEEK on bad lines, with LANE_ERRORS and the count reached as detail (R16). -/
def State.laneErrorsReached (s : State) (n : Nat) : State :=
  let l := s.lane n
  (s.setLane n { l with state := .seek, matchCount := 0, slip := false }).postCondition .laneErrors n
    l.bad

/-- A received line: stored, counted, and where it is bad the bad-line count rises, up to the limit in
force, at which the lane goes to SEEK (R16). In DOWN no line is kept. Lane C's alignment buffer and its chroma
swap are not used: its lines are counted and checked alone (R17, R18). -/
def State.laneLine (s : State) (n : Nat) (samples : Line) (check : LinkWord) : State :=
  let l := s.lane n
  if isLane n ∧ l.state ≠ .down then
    let buffered := if n = laneC then l else l.store s.timing.format samples
    let stored := { buffered with lines := l.lines + 1 }
    if badLine s.timing.format samples check ∧ l.bad < l.limitInForce then
      let s' := s.setLane n { stored with bad := l.bad + 1 }
      if l.bad + 1 = l.limitInForce then s'.laneErrorsReached n else s'
    else s.setLane n stored
  else s

/-! ### The missed-field watch and the turn of the output field (R12) -/

/-- The lane record on entering DOWN by the missed-field watch (R12). -/
def Lane.goDown (l : Lane) : Lane :=
  { l with
    state := .down, missed := 0, matchCount := 0, slip := false, mismatch := false, bad := 0 }

/-- The lane goes to DOWN and records LANE_DOWN (R12). -/
def State.laneToDown (s : State) (n : Nat) : State :=
  (s.setLane n (s.lane n).goDown).postCondition .laneDown n 0

/-- The output field of the matches and pictures turns: what was matched with the next output field is
now matched with the one in progress, whose parity `p` a lane field matched with it takes (R9, R13). -/
def Lane.turnField (l : Lane) (p : Parity) : Lane :=
  { l with
    seen := false
    openParity := if l.target = .next then p else l.openParity
    matchedCurrent := l.matchedNext
    matchedNext := none
    pictureCurrent := l.pictureNext
    pictureNext := []
    target :=
      match l.target with
      | .next => .current
      | .current | .past => .past }

/-- The count of the watch: in every state but DOWN, one more where no lane field start was taken in the
output field that has just ended, else 0 (R12). -/
def Lane.watched (l : Lane) : Lane :=
  if l.state = .down then l
  else if l.seen then { l with missed := 0 }
  else { l with missed := l.missed + 1 }

/-- One lane at an output field start, its number and parity taken: the watch, then the turn of the
field (R12). -/
def State.watchLane (s : State) (n : Nat) : State :=
  let l := (s.lane n).watched
  let s' := s.setLane n (l.turnField s.timing.parity)
  if l.state ≠ .down ∧ 2 ≤ l.missed then s'.laneToDown n else s'

/-- The lane numbers 1 to 25. -/
def laneNumbers : List Nat := (List.range 25).map (· + 1)

/-- The watch over every lane, in order of lane number (R12, log 14). -/
def State.watchLanes (s : State) : State := laneNumbers.foldl State.watchLane s

/-- The delivery decision of every lane (R11). -/
def State.decideLanes (s : State) : State :=
  { s with lanes := changeAll (fun _ l => l.decide) s.lanes }

/-! ### SET LANE and RESEEK (R18, R20) -/

/-- SET LANE replaces the four settings of the named lane (R18). -/
def State.setLaneSettings (s : State) (n : Nat) (settings : LaneSettings) : State :=
  s.setLane n { s.lane n with settings := settings }

/-- A lane sent to SEEK by RESEEK or a format change: the counts and flags cleared, delay and settings
kept, the lane field in progress not judged, and no lane field matched, so that its substitute is
delivered (R20, R8, log 16); STATUS then reports SEEK for that field also where a lane field matched with it
had started before (log 44). Where the delivery decision of the output field in progress is to stand,
`decided`, its match stays. -/
def Lane.reseek (l : Lane) (decided : Bool) : Lane :=
  { l with
    state := .seek, matchCount := 0, slip := false, mismatch := false, bad := 0, missed := 0
    unjudged := true, matchedCurrent := if decided then l.matchedCurrent else none
    matchedNext := none }

/-- Every lane that `named` holds of goes to SEEK; for lane C a packet in reception is discarded
(R8, R20, R24). -/
def State.reseekLanes (s : State) (named : Nat → Bool) (decided : Bool) : State :=
  { s with
    lanes := changeAll (fun i l => if named (i + 1) then l.reseek decided else l) s.lanes
    receiver := if named laneC then { s.receiver with inReception := none } else s.receiver }

end Sys2Proof.Machine
end

