-- ==== Sys2Proof/Machine/Tally.lean ====
section
/-!
DEFINITION. The contribution rule and the tally sets (chapter 8, R152 to R157).
-/

namespace Sys2Proof.Machine

open Sys2Proof

/-- The 31-member map of the sources that a test holds of (R157). -/
def sourceSet (test : Nat → Bool) : SourceSet := ⟨⟨(List.range 31).map test⟩, by simp⟩

/-- The background weight of a bank's displayed view: q_d where its engine drives BKGD, else 0
(R152). -/
def State.backgroundWeight (s : State) (e : EngineId) : Nat :=
  match s.driveBackground e with
  | some d => d.shown
  | none => 0

/-- The background weight of a bank's look-ahead view (R152). -/
def State.aheadWeight (s : State) (e : EngineId) : Nat :=
  if (s.lookAhead e).bkgd then 1024 else 0

/-- The buses of a background that contribute at a weight: A below 1024, B above 0 (R152). -/
def backgroundBuses (busA weight : Nat) : List Nat :=
  (if weight < 1024 then [busA] else []) ++ (if 0 < weight then [busA + 1] else [])

/-- The buses of a keyer that contribute at a weight: both, above 0, unless its mask is an inverted full
mask (R152). -/
def State.keyBuses (s : State) (n weight : Nat) : List Nat :=
  if 0 < weight ∧ KeySettings.invertedFullMask (s.keyer n).settings = false then
    [fillBus n, fillBus n + 1]
  else []

/-- The contributing buses of a bank under a view (R152). -/
def State.bankBuses (s : State) (busA weight first : Nat) (kf : Nat → Nat) : List Nat :=
  backgroundBuses busA weight ++ s.keyBuses first (kf first) ++
    s.keyBuses (first + 1) (kf (first + 1)) ++ s.keyBuses (first + 2) (kf (first + 2))

/-- The contributing buses of bank 1's displayed view. -/
def State.me1Buses (s : State) : List Nat :=
  s.bankBuses 0 (s.backgroundWeight .me1) 0 s.keyFade

/-- The contributing buses of the downstream keys, by their displayed kf in both views (R152). -/
def State.downstreamBuses (s : State) : List Nat :=
  s.keyBuses 6 (s.keyFade 6) ++ s.keyBuses 7 (s.keyFade 7)

/-- The contributing buses of the composed program (R155). -/
def State.programBuses (s : State) : List Nat :=
  s.bankBuses 8 (s.backgroundWeight .me2) 3 s.keyFade ++ s.downstreamBuses

/-- The contributing buses of the preview (R156). -/
def State.previewBuses (s : State) : List Nat :=
  s.bankBuses 8 (s.aheadWeight .me2) 3 s.aheadFade ++ s.downstreamBuses

/-- A source held on a contributing bus. -/
def State.heldOn (s : State) (buses : List Nat) (source : Nat) : Bool :=
  buses.any fun b => s.bus b == source

/-- The membership test of a source: enabled, not tally-exempt, and never 30 (R153). -/
def State.tallied (s : State) (source : Nat) : Bool :=
  (s.source source).enabled && !(s.source source).exempt && source != 30

/-- A source contributes through a list of buses: held on one of them, or through an enabled source 29
on one of them from bank 1's output (R153, R154). -/
def State.contributes (s : State) (buses : List Nat) (source : Nat) : Bool :=
  s.tallied source &&
    (s.heldOn buses source ||
      (s.heldOn buses 29 && (s.source 29).enabled && s.heldOn s.me1Buses source))

/-- The program tally set (R72, R155). -/
def State.programTally (s : State) : SourceSet :=
  match s.matrix.bypass with
  | some source => sourceSet fun n => n == source && s.tallied n
  | none => sourceSet (s.contributes s.programBuses)

/-- The preview tally set (R156). -/
def State.previewTally (s : State) : SourceSet := sourceSet (s.contributes s.previewBuses)

/-- The tally sets of the field are formed (R155, R156). -/
def State.formTally (s : State) : State := { s with tally := ⟨s.programTally, s.previewTally⟩ }

end Sys2Proof.Machine
end

