-- ==== Sys2Proof/Machine/Reports.lean ====
section
/-!
DEFINITION. The Report Builder (chapters 10 and 11): the framing of packets (R182), the payloads of
STATUS, TALLY and NOTICES (R184), their formation (R173 to R178), CLEAR CONDITIONS (R179) and SET REPORTS
(R180).
-/

namespace Sys2Proof.Machine

open Sys2Proof

/-! ### Framing (R182) -/

/-- The number of ones of a byte. -/
def ones (b : Byte) : Nat := (List.range 8).foldl (fun a i => a + (b.getLsbD i).toNat) 0

/-- The word that carries a byte: bit 8 makes bits 0 to 8 even, bit 9 is its inverse (R182). -/
def byteWord (b : Byte) : LinkWord :=
  BitVec.ofNat 10 (b.toNat + if ones b % 2 = 1 then 256 else 512)

/-- The identities of the packets (11.1). -/
inductive PacketKind where
  | control | status | tally | notices
deriving DecidableEq, Repr

/-- The second identity word (11.1). -/
def PacketKind.identity : PacketKind → LinkWord
  | .control => 0x1C3#10
  | .status => 0x1C4#10
  | .tally => 0x1C5#10
  | .notices => 0x1C6#10

/-- The words that the check word sums: identity, length and payload (R182). -/
def checkedWords (kind : PacketKind) (payload : List Byte) : List LinkWord :=
  [0x25A#10, kind.identity, byteWord (byteOf payload.length)] ++ payload.map byteWord

/-- A whole packet, from its flag to its check word (11.1). -/
def framePacket (kind : PacketKind) (payload : List Byte) : List LinkWord :=
  [0x3FE#10, 0x001#10] ++ checkedWords kind payload ++ [checkWord (checkedWords kind payload)]

/-! ### Codes of reported values (11.3) -/

def EngineState.code : EngineState → Nat
  | .idle => 0
  | .auto => 1
  | .paused => 2
  | .lever => 3

def RefState.code : RefState → Nat
  | .absent => 0
  | .locking => 1
  | .locked => 2
  | .holdover => 3

def LaneState.code : LaneState → Nat
  | .down => 0
  | .seek => 1
  | .timed => 2
  | .untimed => 3

def CheckerState.code : CheckerState → Nat
  | .idle => 0
  | .seeking => 1
  | .locked => 2

def ResetCause.code : ResetCause → Nat
  | .power => 0
  | .pin => 1
  | .command => 2

def FtbState.code : FtbState → Nat
  | .clear => 0
  | .blacked => 1

def Sense.code : Sense → Nat
  | .up => 0
  | .down => 1

def Reason.code : Reason → Nat
  | .badCommand => 1
  | .badLength => 2
  | .badRange => 3
  | .loop => 4
  | .stale => 5
  | .queueFull => 6
  | .busy => 7
  | .sourceDisabled => 8
  | .emptyNext => 9
  | .notRunning => 10
  | .badStyle => 11
  | .late => 12
  | .clamped => 13

/-! ### The items of STATUS (R106, R174) -/

/-- What STATUS reports of an engine: R is the rate of the run record, 0 when IDLE (R106). -/
def Engine.report (x : Engine) : EngineReport :=
  { state := x.state
    j := x.j
    rate :=
      match x.state, x.run with
      | .idle, _ => 0
      | _, some r => r.settings.rate
      | _, none => 0
    shown := x.shown
    forced := x.force.isSome }

/-- The STATUS items as they stand now (R174). -/
def State.statusView (s : State) : StatusView where
  number := s.timing.field
  parity := s.timing.parity
  format := s.timing.format
  ref := s.timing.ref
  cause := s.reports.cause
  depth := s.waiting.entries.length
  hold := s.waiting.hold
  bypass := s.matrix.bypass
  engines := EngineId.all.map fun e => (s.engine e).report
  onAir := s.keyers.toList.map (·.onAir)
  ftb := s.ftb
  lever1 := s.engines.me1.lever
  lever2 := s.engines.me2.lever
  dirtyShapes := s.tables.dirtyShapes
  dirtyCurves := s.tables.dirtyCurves
  dirtySources := s.tables.dirtySources
  checker := s.checker.state

/-- The items are taken for the field in progress (R174). -/
def State.takeStatus (s : State) : State := { s with status := s.statusView }

/-! ### Payloads (R184) -/

/-- A bitmap over members 0, 1, 2, … as a number (R183). -/
def bitmap (members : List Bool) : Nat :=
  members.foldr (fun b rest => b.toNat + 2 * rest) 0

/-- The eight bytes of an engine in STATUS. -/
def EngineReport.bytes (r : EngineReport) : List Byte :=
  [byteOf r.state.code] ++ fieldBytes r.j ++ fieldBytes r.rate ++ fieldBytes r.shown ++
    [byteOf r.forced.toNat]

/-- The four bytes of a lever record in STATUS. -/
def LeverRecord.bytes (r : LeverRecord) : List Byte :=
  fieldBytes r.last ++ [byteOf r.sense.code, byteOf r.offside.toNat]

/-- The ten bytes of a snapshot in STATUS, all 0 where none is sent. -/
def snapshotBytes : Option Snapshot → List Byte
  | some x =>
    [byteOf x.state.code] ++ fieldBytes x.checked ++ fieldBytes x.errored ++
      fieldBytes x.erroredFields ++ [byteOf x.overflow.toNat] ++ fieldBytes x.field.toNat
  | none => List.replicate 10 0#8

/-- The lane states of STATUS: the state on which each delivery decision was made (R11). -/
def State.laneStateBytes (s : State) : List Byte :=
  s.lanes.toList.map fun l => byteOf l.decision.state.code

/-- The 97 bytes of STATUS (R184). -/
def State.statusPayload (s : State) : List Byte :=
  let v := s.status
  fieldBytes v.number.toNat ++
    [byteOf v.parity.toNat, byteOf v.format.code, byteOf v.ref.code, byteOf v.cause.code,
      byteOf v.depth, byteOf v.hold.toNat, byteOf (v.bypass.getD 255)] ++
    v.engines.flatMap EngineReport.bytes ++
    [byteOf (bitmap v.onAir), byteOf v.ftb.code] ++
    v.lever1.bytes ++ v.lever2.bytes ++
    [byteOf (bitmap [v.dirtyShapes, v.dirtyCurves, v.dirtySources])] ++
    s.laneStateBytes ++
    [byteOf v.checker.code, byteOf s.checker.snapshot.isSome.toNat] ++
    snapshotBytes s.checker.snapshot

/-- The 10 bytes of TALLY (R184). -/
def State.tallyPayload (s : State) : List Byte :=
  fieldBytes s.status.number.toNat ++ longBytes (bitmap s.tally.program.toList) ++
    longBytes (bitmap s.tally.preview.toList)

/-- The five bytes of a notice. -/
def Notice.bytes (n : Notice) : List Byte :=
  fieldBytes n.tag.toNat ++ [byteOf n.kind, byteOf n.reason.code, byteOf n.subject]

/-- The nine bytes of a condition entry; the detail is two's complement over 16 bits (R183). -/
def Condition.bytes (c : Condition) : List Byte :=
  [byteOf c.kind.code, byteOf c.subject] ++ fieldBytes c.first.toNat ++ fieldBytes c.last.toNat ++
    [byteOf c.count] ++ fieldBytes (BitVec.ofInt 16 c.detail).toNat

/-- Whether a condition's kind is in the mask (R180). -/
def Reports.masked (r : Reports) (c : Condition) : Bool := r.mask.getLsbD c.kind.code

/-- The condition kinds in priority order (R178). -/
def conditionKinds : List ConditionKind :=
  [.refLost, .laneDown, .laneErrors, .laneFormat, .laneUntimed, .laneSlip, .controlCheck,
    .controlOverrun, .queueHold, .checkerError, .noticeOverflow]

/-- The condition entries that NOTICES carries: unmasked, by priority of kind and then by order of
addition, the first 8 (R178). -/
def Reports.chosen (r : Reports) : List Condition :=
  (conditionKinds.flatMap fun k => r.conditions.filter fun c => c.kind == k && !r.masked c).take 8

/-- Whether NOTICES would carry something (R178). -/
def Reports.hasNotices (r : Reports) : Bool :=
  !r.notices.isEmpty || decide (0 < r.overflow) || r.conditions.any (fun c => !r.masked c) ||
    r.listFull

/-- The payload of NOTICES (R178, R184). -/
def State.noticesPayload (s : State) : List Byte :=
  let r := s.reports
  fieldBytes s.status.number.toNat ++
    [byteOf r.notices.length, byteOf r.overflow] ++ r.notices.flatMap Notice.bytes ++
    [byteOf r.chosen.length] ++ r.chosen.flatMap Condition.bytes ++
    [byteOf r.conditions.length, byteOf r.listFull.toNat]

/-! ### Formation (R173) -/

/-- STATUS is formed and a waiting snapshot becomes absent (R171, R174). -/
def State.formStatus (s : State) : State :=
  if s.reports.enables.status then
    { s with
      packets := s.packets ++ [framePacket .status s.statusPayload]
      checker := { s.checker with snapshot := none } }
  else s

/-- TALLY is formed (R175). -/
def State.formTallyPacket (s : State) : State :=
  if s.reports.enables.tally then
    { s with packets := s.packets ++ [framePacket .tally s.tallyPayload] }
  else s

/-- NOTICES is formed where it is enabled and would carry something; it takes the notices and the
overflow count (R176, R178). -/
def State.formNotices (s : State) : State :=
  if s.reports.enables.notices ∧ s.reports.hasNotices then
    { s with
      packets := s.packets ++ [framePacket .notices s.noticesPayload]
      reports := { s.reports with notices := [], overflow := 0 } }
  else s

/-- The reports of the field in progress are formed and placed, in the order STATUS, TALLY, NOTICES
(R173); before field 0 there are none (R7, log 25). They are formed whenever the row comes, also in a field that
the alignment of R5 ends before its active picture is over: the model's choice (log 45). A field forms its
reports once (R173); a second row of this kind in a field forms them again in the place of the first, the
model's choice (log 42). -/
def State.formReports (s : State) : State :=
  if s.timing.started then { s with packets := [] }.formStatus.formTallyPacket.formNotices else s

/-! ### CLEAR CONDITIONS and SET REPORTS -/

/-- The list-full flag after a removal (R179). -/
def Reports.fullAfterRemoval (r : Reports) : Reports :=
  if r.conditions.length < 32 then { r with listFull := false } else r

/-- CLEAR CONDITIONS ALL at its delivery (R179). -/
def State.deliverClearAll (s : State) : State :=
  { s with reports := { s.reports with conditions := [] }.fullAfterRemoval }

/-- CLEAR CONDITIONS of one kind and subject at its delivery (R179). -/
def State.deliverClearOne (s : State) (kind : ConditionKind) (subject : Nat) : State :=
  { s with
    reports :=
      { s.reports with
        conditions := s.reports.conditions.filter fun c => !c.isFor kind subject }.fullAfterRemoval }

/-- SET REPORTS at its delivery (R180). -/
def State.deliverSetReports (s : State) (enables : Enables) (mask : KindSet) : State :=
  { s with reports := { s.reports with enables := enables, mask := mask } }

/-- The Report Builder at the delivery of an ENGINE RESET (R181). -/
def Reports.engineReset (r : Reports) : Reports :=
  { r with notices := [], overflow := 0, cause := .command }

end Sys2Proof.Machine
end

