-- ==== Sys2Proof/Machine/Tables.lean ====
section
/-!
DEFINITION. The Table Store (chapter 3): the loads into SHADOW (R43, R45, R48) and the COMMIT (R51).
-/

namespace Sys2Proof.Machine

open Sys2Proof

/-- LOAD SHAPE replaces one record of SHADOW and sets the dirty flag (R43). -/
def Tables.loadShape (t : Tables) (n : Nat) (r : ShapeRecord) : Tables :=
  { t with shadowShapes := put t.shadowShapes n r, dirtyShapes := true }

/-- The points written in turn by a point pointer (R45). -/
def writePoints (c : Curve) (pointer : Nat) : List Nat → Curve
  | [] => c
  | p :: rest => writePoints (put c pointer p) (pointer + 1) rest

/-- LOAD CURVE writes points of one SHADOW curve and sets the dirty flag (R45). -/
def Tables.loadCurve (t : Tables) (n first : Nat) (points : List Nat) : Tables :=
  { t with
    shadowCurves :=
      put t.shadowCurves n (writePoints (look t.shadowCurves n identityCurve) first points)
    dirtyCurves := true }

/-- LOAD SOURCE replaces one record of SHADOW and sets the dirty flag (R48). -/
def Tables.loadSource (t : Tables) (n : Nat) (r : SourceRecord) : Tables :=
  { t with shadowSources := put t.shadowSources n r, dirtySources := true }

/-- COMMIT copies SHADOW into ACTIVE for each kind named and clears its dirty flag (R51). -/
def Tables.commit (t : Tables) (kinds : TableSet) : Tables :=
  { t with
    shapes := if kinds.shapes then t.shadowShapes else t.shapes
    dirtyShapes := !kinds.shapes && t.dirtyShapes
    curves := if kinds.curves then t.shadowCurves else t.curves
    dirtyCurves := !kinds.curves && t.dirtyCurves
    sources := if kinds.sources then t.shadowSources else t.sources
    dirtySources := !kinds.sources && t.dirtySources }

end Sys2Proof.Machine
end

