-- ==== Sys2Proof/Machine/Deliver.lean ====
section
/-!
DEFINITION. The delivery of a command to the block that owns the state it changes (R35, R36): SET FORMAT
(R8), ENGINE RESET (R38, R104, R172, R181) and PURGE (R30) stand here; the rest stand with their blocks.
-/

namespace Sys2Proof.Machine

open Sys2Proof

/-! ### SET FORMAT (R8) -/

/-- A stored time in the ticks of a new format (log 6); no time at all is none in any format. -/
def newTicks (old new : Format) (t : Nat) : Nat :=
  if old = new ∨ t = 0 then t else Config.rescale old new t

/-- The Timing Unit at a format change (R8). -/
def Timing.changeFormat (t : Timing) (f : Format) : Timing :=
  { t with
    format := f
    parity := false
    nextParity := f.interlaced
    ref := if t.silent then .absent else .locking
    good := 0
    heldInUse := false
    aligning := false
    fieldPeriod := nominalTicks f false
    sinceField := newTicks t.format f t.sinceField
    sinceRef := newTicks t.format f t.sinceRef
    held := newTicks t.format f t.held
    period1 := newTicks t.format f t.period1
    period2 := newTicks t.format f t.period2 }

/-- SET FORMAT at its delivery: refused with BUSY while an engine is not IDLE, else the format changes
and every lane goes to SEEK and delivers its substitute from this field on (R8). -/
def State.deliverSetFormat (s : State) (tag : Tag) (f : Format) : State :=
  if s.engines.allIdle then
    ({ s with timing := s.timing.changeFormat f }.reseekLanes (fun _ => true) false).decideLanes
  else s.postNotice tag 15 .busy 0

/-! ### ENGINE RESET and PURGE -/

/-- ENGINE RESET at its delivery: the rest of the Pending List is removed and the hold flag cleared
(R38), every run abandoned (R104), the checker put in IDLE (R172), the notice list emptied and the
reset cause set (R181). -/
def State.deliverEngineReset (s : State) : State :=
  { s with
    waiting := ⟨[], false⟩
    engines := s.engines.engineReset
    checker := s.checker.engineReset
    reports := s.reports.engineReset }

/-- PURGE ALL at its arrival (R30). -/
def State.purgeAll (s : State) : State :=
  { s with waiting := { s.waiting with entries := [] }.holdAfterRemoval }

/-- PURGE TAG at its arrival (R30). -/
def State.purgeTag (s : State) (tag : Tag) : State :=
  { s with
    waiting :=
      { s.waiting with entries := s.waiting.entries.filter fun e => e.tag != tag }.holdAfterRemoval }

/-! ### Delivery -/

/-- RESEEK at its delivery (R20). A delivery comes before the presentation point of its field; the row of
log 3 taken after it leaves what the field in progress delivers (R74). -/
def State.deliverReseek (s : State) (lanes : LaneSet) : State :=
  s.reseekLanes (fun n => lanes.getLsbD n) s.timing.presented

/-- A command is delivered to its owning block, which applies or refuses it; BYPASS and PURGE, which
take no place in the Pending List (2.4), act as at their arrival. -/
def State.deliver (s : State) (tag : Tag) (c : Command) : State :=
  match c with
  | .select bus source => s.deliverSelect tag bus source
  | .setNext me sel => s.deliverSetNext me sel
  | .setTransition e t => s.deliverSetTransition tag e t
  | .take set => s.forEngines set (State.takeOne tag)
  | .cut set => s.forEngines set (State.cutOne tag)
  | .hold set => s.forEngines set (State.holdOne tag)
  | .resume set => s.forEngines set (State.resumeOne tag)
  | .release set => s.forEngines set State.releaseOne
  | .lever me position => s.deliverLever tag me position
  | .force e value => s.deliverForce e value
  | .setKey n k => s.deliverSetKey n k
  | .setMatte m colour => s.deliverSetMatte m colour
  | .setLane n l => s.setLaneSettings n l
  | .reseek lanes => s.deliverReseek lanes
  | .setFormat f => s.deliverSetFormat tag f
  | .loadShape n r => { s with tables := s.tables.loadShape n r }
  | .loadCurve n first points => { s with tables := s.tables.loadCurve n first points }
  | .loadSource n r => { s with tables := s.tables.loadSource n r }
  | .commit kinds => { s with tables := s.tables.commit kinds }
  | .setMonitor point => s.deliverSetMonitor point
  | .checkerStart point mode => s.deliverCheckerStart point mode
  | .checkerStop => s.deliverCheckerStop
  | .snapshotKeep => s.deliverSnapshotKeep
  | .snapshotClear => s.deliverSnapshotClear
  | .clearConditionsAll => s.deliverClearAll
  | .clearConditionsOne kind subject => s.deliverClearOne kind subject
  | .setReports enables mask => s.deliverSetReports enables mask
  | .purgeAll => s.purgeAll
  | .purgeTag t => s.purgeTag t
  | .bypass source => s.stageBypass source
  | .engineReset => s.deliverEngineReset

end Sys2Proof.Machine
end

