-- ==== Sys2Proof/Machine/Receiver.lean ====
section
/-!
DEFINITION. The Command Receiver and the Pending List (chapter 2): packet reception (R22 to R24),
validation (R26), clamping (R28), classification (R31), insertion (R33) and the release at a field
start (R35).
-/

namespace Sys2Proof.Machine

open Sys2Proof

/-! ### The Pending List -/

/-- δ = (X − N) mod 65536 (00 Field numbers and due fields). -/
def ahead (n x : FieldNo) : Nat := (x - n).toNat

/-- Insertion after every entry whose due field is X or earlier, and before every later one, read
forward from N (R33). -/
def insertEntry (n : FieldNo) (e : Entry) : List Entry → List Entry
  | [] => [e]
  | h :: rest => if ahead n h.due ≤ ahead n e.due then h :: insertEntry n e rest else e :: h :: rest

/-- A notice posted or not. -/
def State.noticeIf (s : State) (b : Bool) (tag : Tag) (c : Command) (reason : Reason) : State :=
  if b then s.postNotice tag c.code reason c.subject else s

/-- A classified command is offered to the Pending List: refused with QUEUE_FULL at 64 entries, else
CLAMPED, the insertion, the hold flag and LATE (R28, R31, R33, R34). CLAMPED comes before LATE
(R28). The manual ties QUEUE_HOLD to the same insertion and does not order it against the notices: its
place between them is the model's choice (log 40), and it decides which condition finds the last free
place. -/
def State.offer (s : State) (tag : Tag) (c : Command) (due : FieldNo) (clamped late : Bool) : State :=
  if 64 ≤ s.waiting.entries.length then s.postNotice tag c.code .queueFull c.subject
  else
    let s1 := s.noticeIf clamped tag c .clamped
    let s2 :=
      { s1 with
        waiting :=
          { s1.waiting with
            entries := insertEntry s1.timing.counter ⟨c, tag, due⟩ s1.waiting.entries } }
    s2.holdAfterInsertion.noticeIf late tag c .late

/-- The due-field classification of an arrival; `due` is `none` for IMMEDIATE (R31). -/
def State.classify (s : State) (tag : Tag) (c : Command) (due : Option FieldNo) (clamped : Bool) :
    State :=
  match due with
  | none => s.offer tag c s.timing.counter clamped false
  | some x =>
    let delta := ahead s.timing.counter x
    if delta ≤ 32767 then s.offer tag c x clamped false
    else if 65534 ≤ delta then s.offer tag c s.timing.counter clamped true
    else s.postNotice tag c.code .stale c.subject

/-! ### Arrivals -/

/-- The timing flag of a payload: `some none` IMMEDIATE, `some (some X)` AT X, `none` neither (R25). -/
def timingOf (p : List Byte) : Option (Option FieldNo) :=
  match byteAt p 3 with
  | 0 => some none
  | 1 => some (some (BitVec.ofNat 16 (fieldAt p 4)))
  | _ => none

/-- The outcome of the four tests of R26. -/
inductive Validation where
  | refused (reason : Reason) (subject : Nat)
  | passed (c : Command) (due : Option FieldNo)
deriving DecidableEq, Repr

/-- The four tests of R26, in order. -/
def validate (p : List Byte) : Validation :=
  if knownKind (byteAt p 0) = false then .refused .badCommand 0
  else if payloadLength p ≠ some p.length then .refused .badLength 0
  else
    match timingOf p, decodeCommand p with
    | some due, some c =>
      if c.inRange = false then .refused .badRange 0
      else if c.loops then .refused .loop c.subject
      else .passed c due
    | _, _ => .refused .badRange 0

/-- The tag of a payload's header (R25). -/
def tagOf (p : List Byte) : Tag := BitVec.ofNat 16 (fieldAt p 1)

/-- A command arrival (R26 to R31): validated, clamped, and acted on at once or classified. -/
def State.arrive (s : State) (p : List Byte) : State :=
  match validate p with
  | .refused reason subject => s.postNotice (tagOf p) (byteAt p 0) reason subject
  | .passed c due =>
    if c.atArrival then s.deliver (tagOf p) c
    else s.classify (tagOf p) c.clamp due (c.clamp != c)

/-! ### Reception (R22, R23, R182) -/

/-- Lane C takes control packets (R17). -/
def State.takesPackets (s : State) : Bool := (s.lane laneC).state.takesPackets

/-- The byte a word carries in its low eight bits (R182). -/
def wordByte (w : LinkWord) : Byte := BitVec.ofNat 8 w.toNat

/-- The flag and identity of a control packet (11.1). -/
def controlStart : List LinkWord := [0x3FE#10, 0x001#10, 0x25A#10, 0x1C3#10]

/-- No packet in reception. -/
def State.endReception (s : State) : State :=
  { s with receiver := { s.receiver with inReception := none } }

/-- A packet is dropped with CONTROL_CHECK, subject 25 (R22). -/
def State.dropPacket (s : State) (detail : Int) : State :=
  s.endReception.postCondition .controlCheck 25 detail

/-- A packet that passes its check: dropped with CONTROL_OVERRUN where 16 have been taken, else taken as
a command arrival (R22, R23). -/
def State.acceptPacket (s : State) (payload : List Byte) : State :=
  if 16 ≤ s.receiver.taken then
    let dropped := min 255 (s.receiver.dropped + 1)
    { s with receiver := { s.receiver with dropped := dropped } }.postCondition .controlOverrun 25
      dropped
  else { s with receiver := { s.receiver with taken := s.receiver.taken + 1 } }.arrive payload

/-- The words of a packet after its identity, as far as they have come, are judged: the length word, and
where the whole packet is there its check word (R22, R182). -/
def State.judgePacket (s : State) (words : List LinkWord) : State :=
  match words with
  | [] => { s with receiver := { s.receiver with inReception := some [] } }
  | length :: rest =>
    let n := (wordByte length).toNat
    if n < 6 ∨ 248 < n then s.dropPacket 1
    else
      match rest[n]? with
      | none => { s with receiver := { s.receiver with inReception := some words } }
      | some check =>
        if check = checkWord ([0x25A#10, 0x1C3#10, length] ++ rest.take n) then
          s.endReception.acceptPacket ((rest.take n).map wordByte)
        else s.dropPacket 0

/-- A packet of lane C's blanking: taken while lane C is TIMED or UNTIMED (R17, R22); words that do not
begin with the flag and the control identity are passed over (R182). -/
def State.controlPacket (s : State) (words : List LinkWord) : State :=
  if s.takesPackets ∧ words.take 4 = controlStart then s.judgePacket (words.drop 4) else s

/-- A flag and the control identity start a packet in reception; `words` are those received after the
identity so far (R22, log 27). -/
def State.startReception (s : State) (words : List LinkWord) : State :=
  if s.takesPackets then s.judgePacket words else s

/-- The blanking of the lane-C field ends: a packet in reception is dropped with detail 2 (R22). -/
def State.controlBlankingEnd (s : State) : State :=
  if s.receiver.inReception.isSome then s.dropPacket 2 else s

/-! ### The release at a field start (R35) -/

/-- The entry at the head leaves the list, and the hold flag is re-evaluated (R34, R35). -/
def PendingList.removeHead (w : PendingList) : PendingList :=
  { w with entries := w.entries.tail }.holdAfterRemoval

/-- The entries due at the field in progress leave the list one at a time and are delivered (R35);
`fuel` is the number of entries that stood in the list. -/
def State.release : Nat → State → State
  | 0, s => s
  | fuel + 1, s =>
    match s.waiting.entries with
    | [] => s
    | e :: _ =>
      if e.due = s.timing.field then
        State.release fuel
          ({ s with waiting := s.waiting.removeHead }.deliver e.tag e.command)
      else s

end Sys2Proof.Machine
end

