-- ==== Sys2Proof/Machine/Commands.lean ====
section
/-!
DEFINITION. The meanings of the rows that are panel commands. Each is the command itself, taken as its
arrival and its delivery take it: the range and LOOP tests of R26, the clamping of R28, then the delivery
to the owning block, at once and in the field in progress (log 3). A command of the Pending List reaches
the same delivery by OUTPUT_FIELD_START.
-/

namespace Sys2Proof.Machine

open Sys2Proof Host

/-- A command taken at once: refused with BAD_RANGE or LOOP as an arrival is (R26), else clamped with
CLAMPED (R28) and delivered (R36, log 3). -/
def State.command (s : State) (tag : Tag) (c : Command) : State :=
  if c.inRange = false then s.postNotice tag c.code .badRange 0
  else if c.loops then s.postNotice tag c.code .loop c.subject
  else (s.noticeIf (c.clamp != c) tag c .clamped).deliver tag c.clamp

/-- SELECT (R61). -/
def execSelect (tag : Tag) (bus source : Nat) (s : State) : Outcome State Fault Refusal :=
  .next (s.command tag (.select bus source))

/-- SET_NEXT (R77). -/
def execSetNext (tag : Tag) (me : Me) (sel : NextSel) (s : State) : Outcome State Fault Refusal :=
  .next (s.command tag (.setNext me sel))

/-- SET_TRANSITION (R76). -/
def execSetTransition (tag : Tag) (e : EngineId) (t : NextSettings) (s : State) :
    Outcome State Fault Refusal :=
  .next (s.command tag (.setTransition e t))

/-- TAKE (R83, R84). -/
def execTake (tag : Tag) (set : EngineSet) (s : State) : Outcome State Fault Refusal :=
  .next (s.command tag (.take set))

/-- CUT (R85). -/
def execCut (tag : Tag) (set : EngineSet) (s : State) : Outcome State Fault Refusal :=
  .next (s.command tag (.cut set))

/-- HOLD (R86). -/
def execHold (tag : Tag) (set : EngineSet) (s : State) : Outcome State Fault Refusal :=
  .next (s.command tag (.hold set))

/-- RESUME (R87). -/
def execResume (tag : Tag) (set : EngineSet) (s : State) : Outcome State Fault Refusal :=
  .next (s.command tag (.resume set))

/-- RELEASE (R103). -/
def execRelease (tag : Tag) (set : EngineSet) (s : State) : Outcome State Fault Refusal :=
  .next (s.command tag (.release set))

/-- LEVER (R95 to R99). -/
def execLever (tag : Tag) (me : Me) (position : Nat) (s : State) : Outcome State Fault Refusal :=
  .next (s.command tag (.lever me position))

/-- FORCE (R101). -/
def execForce (tag : Tag) (e : EngineId) (value : Nat) (s : State) : Outcome State Fault Refusal :=
  .next (s.command tag (.force e value))

/-- SET_KEY (R122). -/
def execSetKey (tag : Tag) (keyer : Nat) (k : KeySettings) (s : State) :
    Outcome State Fault Refusal :=
  .next (s.command tag (.setKey keyer k))

/-- SET_MATTE (R160). -/
def execSetMatte (tag : Tag) (m : Matte) (c : Colour) (s : State) : Outcome State Fault Refusal :=
  .next (s.command tag (.setMatte m c))

/-- SET_LANE (R18). -/
def execSetLane (tag : Tag) (lane : Nat) (l : LaneSettings) (s : State) :
    Outcome State Fault Refusal :=
  .next (s.command tag (.setLane lane l))

/-- RESEEK (R20). -/
def execReseek (tag : Tag) (lanes : LaneSet) (s : State) : Outcome State Fault Refusal :=
  .next (s.command tag (.reseek lanes))

/-- SET_FORMAT (R8). -/
def execSetFormat (tag : Tag) (f : Format) (s : State) : Outcome State Fault Refusal :=
  .next (s.command tag (.setFormat f))

/-- LOAD_SHAPE (R43). -/
def execLoadShape (tag : Tag) (n : Nat) (r : ShapeRecord) (s : State) :
    Outcome State Fault Refusal :=
  .next (s.command tag (.loadShape n r))

/-- LOAD_CURVE (R45). -/
def execLoadCurve (tag : Tag) (n first : Nat) (points : List Nat) (s : State) :
    Outcome State Fault Refusal :=
  .next (s.command tag (.loadCurve n first points))

/-- LOAD_SOURCE (R48). -/
def execLoadSource (tag : Tag) (n : Nat) (r : SourceRecord) (s : State) :
    Outcome State Fault Refusal :=
  .next (s.command tag (.loadSource n r))

/-- COMMIT (R51). -/
def execCommit (tag : Tag) (kinds : TableSet) (s : State) : Outcome State Fault Refusal :=
  .next (s.command tag (.commit kinds))

/-- SET_MONITOR (R150). -/
def execSetMonitor (tag : Tag) (point : MonPoint) (s : State) : Outcome State Fault Refusal :=
  .next (s.command tag (.setMonitor point))

/-- CHECKER_START (R169). -/
def execCheckerStart (tag : Tag) (point : CheckPoint) (mode : CheckMode) (s : State) :
    Outcome State Fault Refusal :=
  .next (s.command tag (.checkerStart point mode))

/-- CHECKER_STOP (R169). -/
def execCheckerStop (tag : Tag) (s : State) : Outcome State Fault Refusal :=
  .next (s.command tag .checkerStop)

/-- SNAPSHOT_KEEP (R170). -/
def execSnapshotKeep (tag : Tag) (s : State) : Outcome State Fault Refusal :=
  .next (s.command tag .snapshotKeep)

/-- SNAPSHOT_CLEAR (R170). -/
def execSnapshotClear (tag : Tag) (s : State) : Outcome State Fault Refusal :=
  .next (s.command tag .snapshotClear)

/-- CLEAR_CONDITIONS_ALL (R179). -/
def execClearConditionsAll (tag : Tag) (s : State) : Outcome State Fault Refusal :=
  .next (s.command tag .clearConditionsAll)

/-- CLEAR_CONDITIONS_ONE (R179). -/
def execClearConditionsOne (tag : Tag) (kind : ConditionKind) (subject : Nat) (s : State) :
    Outcome State Fault Refusal :=
  .next (s.command tag (.clearConditionsOne kind subject))

/-- SET_REPORTS (R180). -/
def execSetReports (tag : Tag) (enables : Enables) (mask : KindSet) (s : State) :
    Outcome State Fault Refusal :=
  .next (s.command tag (.setReports enables mask))

/-- PURGE_ALL (R30). -/
def execPurgeAll (tag : Tag) (s : State) : Outcome State Fault Refusal :=
  .next (s.command tag .purgeAll)

/-- PURGE_TAG (R30). -/
def execPurgeTag (tag named : Tag) (s : State) : Outcome State Fault Refusal :=
  .next (s.command tag (.purgeTag named))

/-- BYPASS (R29). -/
def execBypass (tag : Tag) (source : Option Nat) (s : State) : Outcome State Fault Refusal :=
  .next (s.command tag (.bypass source))

/-- ENGINE_RESET (R38, R104). -/
def execEngineReset (tag : Tag) (s : State) : Outcome State Fault Refusal :=
  .next (s.command tag .engineReset)

end Sys2Proof.Machine
end

