-- ==== Sys2Proof/Machine/FieldStart.lean ====
section
/-!
DEFINITION. The output field start (R1): the field takes its number and parity, and every block does its
per-field work in the order of R12, R69, R35, R81, R67, R163, R11, R63, R155, R174 (log 13).
-/

namespace Sys2Proof.Machine

open Sys2Proof

/-- The clock runs on by a number of ticks (log 5). -/
def Timing.advance (t : Timing) (ticks : Nat) : Timing :=
  { t with sinceField := t.sinceField + ticks, sinceRef := t.sinceRef + ticks }

/-- The period at which an output field of parity `p` runs: the held period where it is in use, else the
nominal field period (R3, R6). -/
def Timing.periodFor (t : Timing) (p : Parity) : Nat :=
  if t.heldInUse then t.held else nominalTicks t.format p

/-- The field that begins takes the field counter and next parity, and both advance (R1). -/
def Timing.turnField (t : Timing) : Timing :=
  { t with
    field := t.counter
    parity := t.nextParity
    counter := t.counter + 1
    nextParity := t.format.interlaced && !t.nextParity
    started := true
    sinceField := 0
    fieldPeriod := t.periodFor t.nextParity
    presented := false }

/-- The event of the field start, and what no delivery precedes: the number and parity (R1), the reports
of the last field gone, the TEST seed (R163). -/
def State.beginField (s : State) : State :=
  { s with
    timing := s.timing.turnField
    packets := []
    generators := { s.generators with test := 1 }
    free := s.free + 1 }

/-- The bypass request applied (R69). -/
def State.applyBypass (s : State) : State := { s with matrix := s.matrix.applyBypass }

/-- The entries due at the field in progress are delivered (R35). -/
def State.releaseDue (s : State) : State := State.release s.waiting.entries.length s

/-- The A/B exchanges of the field (R67). -/
def State.exchange (s : State) : State := { s with matrix := s.matrix.exchange }

/-- An output field start (R1). -/
def State.startField (s : State) : State :=
  s.beginField.watchLanes.applyBypass.releaseDue.stepEngines.exchange.decideLanes.takePicture
    |>.formTally.takeStatus

end Sys2Proof.Machine
end

