-- ==== Sys2Proof/Machine/Timing.lean ====
section
/-!
DEFINITION. The Timing Unit (R2 to R7): field pulses of the reference, the reference states, the
alignment search, silence and hold-over, and the resets.
-/

namespace Sys2Proof.Machine

open Sys2Proof

/-! ### Reference fields (R2) -/

/-- A field pulse is accepted at least half a field period after the last accepted reference field
start, and the first after a reset always (R2, R7, log 7). -/
def Timing.acceptsPulse (t : Timing) : Bool :=
  !t.refSeen || decide (nominalTicks t.format t.refParity ≤ 2 * t.sinceRef)

/-- The reference field that a reference field start ends is correct: its length in line pulses is
nominal for its parity, and in the interlaced format its pulse opened the field of the other parity from
the one before it (R2). There is none before the first reference field after a reset, where the parity
test holds (log 9). -/
def Timing.fieldCorrect (t : Timing) : Bool :=
  t.refLines == nominalLines t.format t.refParity &&
    (!t.format.interlaced || t.refPrev.all fun p => p != t.refParity)

/-- A reference field start is taken: the next reference field begins (R2). Of a pulse in a progressive
format, which tells no parity, the operand is kept as the parity (log 38). -/
def Timing.takeReference (t : Timing) (opens : Parity) : Timing :=
  { t with
    refSeen := true
    silent := false
    sinceRef := 0
    refLines := 0
    refPrev := if t.refSeen then some t.refParity else none
    refParity := opens }

/-- A correct reference field of a period (R6). -/
def Timing.recordPeriod (t : Timing) (period : Nat) : Timing :=
  { t with period1 := period, period2 := t.period1 }

/-! ### Locking and the alignment search (R4, R5) -/

/-- A reference field start puts the unit in LOCKING and opens the first reference field to be judged;
`fromHoldover` keeps the held period in use (R3, R4). -/
def Timing.enterLocking (t : Timing) (fromHoldover : Bool) : Timing :=
  { t with ref := .locking, good := 0, heldInUse := fromHoldover }

/-- A reference field start may end the output field in progress: it comes at least half a field period
after that field began (R5, log 7). -/
def Timing.mayAlign (t : Timing) : Bool :=
  decide (nominalTicks t.format t.parity ≤ 2 * t.sinceField)

/-- The aligned field start: in the interlaced format it takes the parity that the reference pulse
opened (R5). -/
def State.alignedStart (s : State) : State :=
  { s with
    timing :=
      { s.timing with
        aligning := false
        nextParity :=
          if s.timing.format.interlaced then s.timing.refParity else s.timing.nextParity } }.startField

/-- LOCKED is entered and the alignment search begins; the held period is no longer in use (R4, R5). -/
def Timing.enterLocked (t : Timing) : Timing :=
  { t with ref := .locked, good := 2, wrong := 0, aligning := true, heldInUse := false }

/-- The unit enters LOCKED at a reference field start, which may itself be the aligned field start
(R5). -/
def State.lockAtStart (s : State) : State :=
  let s' := { s with timing := s.timing.enterLocked }
  if s'.timing.mayAlign then s'.alignedStart else s'

/-- A reference field start followed in LOCKED: in the search it is the aligned field start where it may
be, after it it raises an output field start (R5, R6). -/
def State.followStart (s : State) : State :=
  if s.timing.aligning then if s.timing.mayAlign then s.alignedStart else s
  else s.startField

/-! ### Hold-over (R6) -/

/-- The Timing Unit on entering HOLDOVER: the held period is the mean period of the last two correct
reference fields, and the field in progress ends at it (R6, log 10). -/
def Timing.enterHoldover (t : Timing) : Timing :=
  { t with
    ref := .holdover
    aligning := false
    held := (t.period1 + t.period2) / 2
    heldInUse := true
    fieldPeriod := (t.period1 + t.period2) / 2 }

/-- The detail of REF_LOST (R6). -/
def holdoverDetail : HoldoverCause → Int
  | .silence => 0
  | .incorrectFields => 1

/-- HOLDOVER is entered with REF_LOST; where the held period has already passed since the field in
progress began, an output field starts at once (R6). -/
def State.enterHoldover (s : State) (cause : HoldoverCause) : State :=
  let s' :=
    { s with timing := s.timing.enterHoldover }.postCondition .refLost 0 (holdoverDetail cause)
  if s'.timing.held ≤ s'.timing.sinceField then s'.startField else s'

/-! ### Field pulses (R2, R4 to R6) -/

/-- An accepted reference field start, by the reference state; `correct` and `period` are of the
reference field it ends (R4 to R6). -/
def State.referenceStart (s : State) (correct : Bool) (period : Nat) : State :=
  match s.timing.ref with
  | .absent => { s with timing := s.timing.enterLocking false }
  | .holdover => { s with timing := s.timing.enterLocking true }
  | .locking =>
    if correct then
      let t := { s.timing.recordPeriod period with good := s.timing.good + 1 }
      if 2 ≤ t.good then { s with timing := t }.lockAtStart else { s with timing := t }
    else { s with timing := { s.timing with good := 0 } }
  | .locked =>
    if correct then
      { s with timing := { s.timing.recordPeriod period with wrong := 0 } }.followStart
    else
      let s' := { s with timing := { s.timing with wrong := s.timing.wrong + 1 } }
      if 2 ≤ s'.timing.wrong then s'.enterHoldover .incorrectFields else s'.followStart

/-- A field pulse `ticks` after the last clocked event, with `lines` line pulses since the last field
pulse, opening a field of a parity (R2). A rejected pulse has no effect; the clock and the count of line
pulses run on. -/
def State.fieldPulse (s : State) (ticks lines : Nat) (opens : Parity) : State :=
  let t := { s.timing.advance ticks with refLines := s.timing.refLines + lines }
  if t.acceptsPulse then
    { s with timing := t.takeReference opens }.referenceStart t.fieldCorrect t.sinceRef
  else { s with timing := t }

/-! ### Moments of the Timing Unit's own -/

/-- Silence: two field periods after the last accepted reference field start (R2). LOCKING returns to
ABSENT and the held period is given up (R4), LOCKED goes to HOLDOVER (R6), and otherwise nothing more
changes. Where the reference is silent already there is no such moment (log 35). -/
def State.silence (s : State) : State :=
  if s.timing.silent then s
  else
    let t := s.timing.advance (2 * nominalTicks s.timing.format s.timing.refParity - s.timing.sinceRef)
    let s' := { s with timing := { t with silent := true } }
    match s.timing.ref with
    | .locking =>
      { s' with timing := { s'.timing with ref := .absent, heldInUse := false } }
    | .locked => s'.enterHoldover .silence
    | .absent | .holdover => s'

/-- The timeout of the alignment search, one and a half field periods after the output field began: the
field ends there and the search goes on (R5, log 7, log 35). -/
def State.searchTimeout (s : State) : State :=
  if s.timing.ref = .locked ∧ s.timing.aligning then
    { s with
      timing :=
        s.timing.advance
          (3 * nominalTicks s.timing.format s.timing.parity / 2 - s.timing.sinceField) }.startField
  else s

/-- The field period of the free-running or held timing expires (R3, R6). In LOCKED the output field
starts are raised at reference field starts and at the search timeout alone (R5, R6, log 11). -/
def State.periodExpires (s : State) : State :=
  if s.timing.ref = .locked then s
  else
    { s with
      timing := s.timing.advance (s.timing.fieldPeriod - s.timing.sinceField) }.startField

/-- The presentation point, 16 lines after the output field start, at which the delivery decisions are
made (R10, R11). It is reached once in a field (log 35). -/
def State.presentationPoint (s : State) : State :=
  if s.timing.started ∧ s.timing.presented = false then
    { s with
      timing :=
        { s.timing.advance (16 * Config.ticksPerLine - s.timing.sinceField) with
          presented := true } }.decideLanes
  else s

/-! ### Resets -/

/-- A POWER or PIN reset: every block at its reset values, with the reset cause (R7, R181). The model's
own queue is not the part's, and its counter of free values runs on. -/
def State.resetPart (s : State) (cause : ResetCause) : State :=
  { State.resetBy cause with pending := s.pending, free := s.free + 1 }

end Sys2Proof.Machine
end

