-- ==== Sys2Proof/Machine/Events.lean ====
section
/-!
DEFINITION. The meanings of the rows that are events: resets, the Timing Unit's, the lanes', the control
lane's, the checker's judgment and the formation of the reports. Each answers a next state.
-/

namespace Sys2Proof.Machine

open Sys2Proof Host

/-- POWER_RESET (R7). -/
def execPowerReset (s : State) : Outcome State Fault Refusal := .next (s.resetPart .power)

/-- PIN_RESET (R7). -/
def execPinReset (s : State) : Outcome State Fault Refusal := .next (s.resetPart .pin)

/-- FIELD_PULSE (R2, R4 to R6). -/
def execFieldPulse (ticks lines : Nat) (opens : Parity) (s : State) : Outcome State Fault Refusal :=
  .next (s.fieldPulse ticks lines opens)

/-- ENTER_LOCKED: the good-field count reaches 2 in LOCKING (R4, R5, log 4). Where that comes at a
reference field start of this moment, the start may be the aligned field start. -/
def execEnterLocked (s : State) : Outcome State Fault Refusal :=
  .next
    (if s.timing.ref = .locking then
      if s.timing.refSeen ∧ s.timing.sinceRef = 0 then s.lockAtStart
      else { s with timing := s.timing.enterLocked }
    else s)

/-- ENTER_HOLDOVER: in LOCKED the wrong-field count reaches 2, or silence comes (R6, log 4). -/
def execEnterHoldover (cause : HoldoverCause) (s : State) : Outcome State Fault Refusal :=
  .next
    (if s.timing.ref = .locked then
      match cause with
      | .silence => { s with timing := { s.timing with silent := true } }.enterHoldover .silence
      | .incorrectFields =>
        { s with timing := { s.timing with wrong := 2 } }.enterHoldover .incorrectFields
    else s)

/-- SILENCE (R2, R4, R6). -/
def execSilence (s : State) : Outcome State Fault Refusal := .next s.silence

/-- ALIGNMENT_SEARCH_TIMEOUT (R5). -/
def execAlignmentSearchTimeout (s : State) : Outcome State Fault Refusal := .next s.searchTimeout

/-- OUTPUT_FIELD_START (R1, R3, R6). -/
def execOutputFieldStart (s : State) : Outcome State Fault Refusal := .next s.periodExpires

/-- LANE_DOWN: the missed-field count of a lane not in DOWN reaches 2 (R12, log 4). -/
def execLaneDown (lane : Nat) (s : State) : Outcome State Fault Refusal :=
  .next (if isLane lane ∧ (s.lane lane).state ≠ .down then s.laneToDown lane else s)

/-- LANE_FIELD_START (R9 to R15). -/
def execLaneFieldStart (lane elapsed : Nat) (s : State) : Outcome State Fault Refusal :=
  .next (s.laneFieldStart lane elapsed)

/-- LANE_LINE (R16). -/
def execLaneLine (lane : Nat) (samples : Line) (check : LinkWord) (s : State) :
    Outcome State Fault Refusal :=
  .next (s.laneLine lane samples check)

/-- LANE_ERRORS: the bad-line count of a lane not in DOWN reaches the limit in force (R16, log 4). -/
def execLaneErrors (lane : Nat) (s : State) : Outcome State Fault Refusal :=
  .next
    (if isLane lane ∧ (s.lane lane).state ≠ .down then
      (s.setLane lane { s.lane lane with bad := (s.lane lane).limitInForce }).laneErrorsReached lane
    else s)

/-- CONTROL_PACKET (R22 to R34). -/
def execControlPacket (words : List LinkWord) (s : State) : Outcome State Fault Refusal :=
  .next (s.controlPacket words)

/-- CONTROL_BLANKING_END (R22). -/
def execControlBlankingEnd (s : State) : Outcome State Fault Refusal := .next s.controlBlankingEnd

/-- PACKET_IN_RECEPTION_START (R22). -/
def execPacketInReceptionStart (words : List LinkWord) (s : State) : Outcome State Fault Refusal :=
  .next (s.startReception words)

/-- PRESENTATION_POINT (R10, R11). -/
def execPresentationPoint (s : State) : Outcome State Fault Refusal := .next s.presentationPoint

/-- CHECKER_JUDGMENT (R165 to R168). -/
def execCheckerJudgment (s : State) : Outcome State Fault Refusal := .next s.judgeField

/-- REPORT_FORMATION (R173 to R178). -/
def execReportFormation (s : State) : Outcome State Fault Refusal := .next s.formReports

end Sys2Proof.Machine
end

