-- ==== Sys2Proof/Machine/Dispatch.lean ====
section
/-!
DEFINITION. One arm for each row of spec/opcode_table.json.
-/

namespace Sys2Proof.Machine

open Sys2Proof

def exec (i : Instr) (s : State) : Host.Outcome State Fault Refusal :=
  match i with
  | .powerReset => Sys2Proof.Machine.execPowerReset s
  | .pinReset => Sys2Proof.Machine.execPinReset s
  | .fieldPulse ticks lines opens => Sys2Proof.Machine.execFieldPulse ticks lines opens s
  | .enterLocked => Sys2Proof.Machine.execEnterLocked s
  | .enterHoldover cause => Sys2Proof.Machine.execEnterHoldover cause s
  | .silence => Sys2Proof.Machine.execSilence s
  | .alignmentSearchTimeout => Sys2Proof.Machine.execAlignmentSearchTimeout s
  | .outputFieldStart => Sys2Proof.Machine.execOutputFieldStart s
  | .laneDown lane => Sys2Proof.Machine.execLaneDown lane s
  | .laneFieldStart lane elapsed => Sys2Proof.Machine.execLaneFieldStart lane elapsed s
  | .laneLine lane samples check => Sys2Proof.Machine.execLaneLine lane samples check s
  | .laneErrors lane => Sys2Proof.Machine.execLaneErrors lane s
  | .controlPacket words => Sys2Proof.Machine.execControlPacket words s
  | .controlBlankingEnd => Sys2Proof.Machine.execControlBlankingEnd s
  | .select tag bus source => Sys2Proof.Machine.execSelect tag bus source s
  | .setNext tag me sel => Sys2Proof.Machine.execSetNext tag me sel s
  | .setTransition tag engine settings => Sys2Proof.Machine.execSetTransition tag engine settings s
  | .take tag engines => Sys2Proof.Machine.execTake tag engines s
  | .cut tag engines => Sys2Proof.Machine.execCut tag engines s
  | .hold tag engines => Sys2Proof.Machine.execHold tag engines s
  | .resume tag engines => Sys2Proof.Machine.execResume tag engines s
  | .release tag engines => Sys2Proof.Machine.execRelease tag engines s
  | .lever tag me position => Sys2Proof.Machine.execLever tag me position s
  | .force tag engine value => Sys2Proof.Machine.execForce tag engine value s
  | .setKey tag keyer settings => Sys2Proof.Machine.execSetKey tag keyer settings s
  | .setMatte tag matte colour => Sys2Proof.Machine.execSetMatte tag matte colour s
  | .setLane tag lane settings => Sys2Proof.Machine.execSetLane tag lane settings s
  | .reseek tag lanes => Sys2Proof.Machine.execReseek tag lanes s
  | .setFormat tag format => Sys2Proof.Machine.execSetFormat tag format s
  | .loadShape tag shape record => Sys2Proof.Machine.execLoadShape tag shape record s
  | .loadCurve tag curve first points => Sys2Proof.Machine.execLoadCurve tag curve first points s
  | .loadSource tag source record => Sys2Proof.Machine.execLoadSource tag source record s
  | .commit tag kinds => Sys2Proof.Machine.execCommit tag kinds s
  | .setMonitor tag point => Sys2Proof.Machine.execSetMonitor tag point s
  | .checkerStart tag point mode => Sys2Proof.Machine.execCheckerStart tag point mode s
  | .checkerStop tag => Sys2Proof.Machine.execCheckerStop tag s
  | .snapshotKeep tag => Sys2Proof.Machine.execSnapshotKeep tag s
  | .snapshotClear tag => Sys2Proof.Machine.execSnapshotClear tag s
  | .clearConditionsAll tag => Sys2Proof.Machine.execClearConditionsAll tag s
  | .clearConditionsOne tag kind subject => Sys2Proof.Machine.execClearConditionsOne tag kind subject s
  | .setReports tag enables mask => Sys2Proof.Machine.execSetReports tag enables mask s
  | .purgeAll tag => Sys2Proof.Machine.execPurgeAll tag s
  | .purgeTag tag named => Sys2Proof.Machine.execPurgeTag tag named s
  | .bypass tag source => Sys2Proof.Machine.execBypass tag source s
  | .engineReset tag => Sys2Proof.Machine.execEngineReset tag s
  | .checkerJudgment => Sys2Proof.Machine.execCheckerJudgment s
  | .reportFormation => Sys2Proof.Machine.execReportFormation s
  | .presentationPoint => Sys2Proof.Machine.execPresentationPoint s
  | .packetInReceptionStart words => Sys2Proof.Machine.execPacketInReceptionStart words s

end Sys2Proof.Machine
end

