-- ==== Sys2Proof/Machine/Step.lean ====
section
/-!
DEFINITION. One step: the row at the front of the queue is taken and run (log 1), and the host's fixed
name for putting a word's command at the front of the queue.
-/

namespace Sys2Proof.Machine

open Sys2Proof

/-- The row at the front of the queue is taken and run with the queue's rest; on an empty queue the block
idles (log 1). -/
def step (s : State) : Host.Outcome State Fault Refusal :=
  match s.pending with
  | [] => .next s
  | i :: rest => exec i { s with pending := rest }

/-- The state with the command that a word spells at the front of its queue; unchanged where the word
spells none, as every word does (log 2). -/
def State.withFetchWord (s : State) (nbits w : Nat) : State :=
  match decodeTableWord nbits w with
  | some i => { s with pending := i :: s.pending }
  | none => s

end Sys2Proof.Machine
end

