-- ==== Sys2Proof/Safety.lean ====
section
/-!
DEFINITION. What a safe run of the part is, in the terms its claims use: the bounds and agreements that
the manual gives its state. Each predicate is a claim's invariant; every field it speaks of is one of
State.
-/

namespace Sys2Proof.Machine

open Sys2Proof

/-- Every entry of the Pending List has passed the arrival tests and carries clamped values (R26, R28). -/
def State.entriesAdmissible (s : State) : Prop :=
  ∀ e ∈ s.waiting.entries, e.command.admissible = true ∧ e.command.atArrival = false

/-- The re-entry restriction: no ME1 bus holds 29 or 30 and no other bus holds 30, nor does the field in
progress show a bus so (R60). -/
def State.busesKeepReentry (s : State) : Prop :=
  (∀ b, b ≤ 7 → s.bus b ≤ 28 ∧ look s.picture.buses b 0 ≤ 28) ∧
    (∀ b, 8 ≤ b → b ≤ 19 → s.bus b ≤ 29 ∧ look s.picture.buses b 0 ≤ 29)

/-- The bypass state, a staged request and the bypass that the field in progress shows name a source 0 to
28 or OFF (R29, R69). -/
def State.bypassInRange (s : State) : Prop :=
  s.matrix.bypass.all (· ≤ 28) = true ∧ s.matrix.staged.all (fun r => r.all (· ≤ 28)) = true ∧
    s.picture.bypass.all (· ≤ 28) = true

/-- The lists of the Report Builder keep their capacities, and the condition list holds no two entries
of one kind and subject (R176, R177). -/
def Reports.wf (r : Reports) : Prop :=
  r.notices.length ≤ 8 ∧ r.overflow ≤ 255 ∧ r.conditions.length ≤ 32 ∧
    r.conditions.Pairwise (fun a b => ¬(a.kind = b.kind ∧ a.subject = b.subject)) ∧
    ∀ c ∈ r.conditions, 1 ≤ c.count ∧ c.count ≤ 255

/-- The hold flag stands as the edges of its band leave it (R34). -/
def PendingList.holdAgrees (w : PendingList) : Prop :=
  (48 ≤ w.entries.length → w.hold = true) ∧ (w.entries.length ≤ 32 → w.hold = false)

/-- The Pending List keeps its capacity and stands in order of due field read forward from the next
field, every due field ahead of it (R33). -/
def State.listOrdered (s : State) : Prop :=
  s.waiting.entries.length ≤ 64 ∧
    (∀ e ∈ s.waiting.entries, ahead s.timing.counter e.due ≤ 32767) ∧
    s.waiting.entries.Pairwise fun a b =>
      ahead s.timing.counter a.due ≤ ahead s.timing.counter b.due

/-- A dirty flag of no means that SHADOW and ACTIVE of that kind are equal (R40). -/
def Tables.dirtyAgrees (t : Tables) : Prop :=
  (t.dirtyShapes = false → t.shadowShapes = t.shapes) ∧
    (t.dirtyCurves = false → t.shadowCurves = t.curves) ∧
    (t.dirtySources = false → t.shadowSources = t.sources)

/-- Every point of every curve is a coefficient (R44). -/
def Tables.pointsInRange (t : Tables) : Prop :=
  ∀ n i, (look (look t.curves n identityCurve) i 0) ≤ 1024 ∧
    (look (look t.shadowCurves n identityCurve) i 0) ≤ 1024

/-- A run record belongs to an engine (R55, R78): its keys are distinct keyers of that engine, only an
M/E engine's run has BKGD, only FTB's and every run of FTB has a fade, and only an M/E engine's has a
shape copy. -/
def RunRecord.belongsTo (r : RunRecord) (e : EngineId) : Prop :=
  (r.elements.keys.map Prod.fst).Nodup ∧
    (∀ k ∈ r.elements.keys, k.1 ≤ 7 ∧ keyerEngine k.1 = e) ∧
    (r.elements.bkgd = true → e.isMe = true) ∧ (r.elements.fade ≠ none ↔ e = .ftb) ∧
    r.shape.isSome = e.isMe

/-- A transition engine as R75, R78, R80, R81, R95 and R99 describe it: IDLE has no run, j = 0 and q = 0;
in AUTO and PAUSED j is below the rate and q is floor(j·1024/R); in LEVER q is the effective position,
between 1 and 1023; a run record belongs to the engine; the positions, rates and force values are in
range; OFFSIDE stands only away from the rest end. -/
def Engine.wf (x : Engine) (e : EngineId) : Prop :=
  (match x.state, x.run with
    | .idle, r => r = none ∧ x.j = 0 ∧ x.q = 0
    | .auto, some r => x.j < r.settings.rate ∧ r.settings.rate ≤ 999 ∧
        x.q = x.j * 1024 / r.settings.rate
    | .paused, some r => x.j < r.settings.rate ∧ r.settings.rate ≤ 999 ∧
        x.q = x.j * 1024 / r.settings.rate
    | .lever, some _ => x.q = x.lever.effective ∧ 1 ≤ x.q ∧ x.q ≤ 1023
    | _, none => False) ∧
  (∀ r, x.run = some r → r.belongsTo e) ∧ x.next.rate ≤ 999 ∧
    x.force.all (· ≤ 1024) = true ∧ x.lever.last ≤ 1024 ∧ (x.lever.offside = true → x.lever.effective ≠ 0)

/-- DSK1, DSK2 and FTB do not enter LEVER, and their style is always MIX (R75, R76). -/
def Engine.downstream (x : Engine) : Prop := x.state ≠ .lever ∧ x.next.style = .mix

/-- The five engines. -/
def Engines.wf (es : Engines) : Prop :=
  (∀ e, (es.get e).wf e) ∧ (∀ e, e.isMe = false → (es.get e).downstream)

/-- The Generators' colours are legal and the TEST register is not 0 (R160, R163). -/
def Generators.wf (g : Generators) : Prop :=
  (∀ c, c = g.matte1 ∨ c = g.matte2 →
    64 ≤ c.y ∧ c.y ≤ 940 ∧ 64 ≤ c.cb ∧ c.cb ≤ 960 ∧ 64 ≤ c.cr ∧ c.cr ≤ 960) ∧
  1 ≤ g.test ∧ g.test ≤ 32767

/-- The counters of the path checker hold 16 bits (R168). -/
def Checker.countersInRange (c : Checker) : Prop :=
  c.checked ≤ 65535 ∧ c.errored ≤ 65535 ∧ c.erroredFields ≤ 65535

/-- The Command Receiver's counts, and no packet in reception while lane C takes none (R23, R24). -/
def State.receiverWf (s : State) : Prop :=
  s.receiver.taken ≤ 16 ∧ s.receiver.dropped ≤ 255 ∧
    (s.takesPackets = false → s.receiver.inReception = none)

/-- A lane record as R10 to R16 keep it: in TIMED the lateness in use is within 16 lines, and the delay
is the one it calls for unless a slip is pending; the settings are in range; the match count is 0 or 1;
the bad-line count is within the limit in force and missed fields is below 2. -/
def Lane.wf (l : Lane) : Prop :=
  l.lateness.natAbs ≤ 16 ∧ l.delay ≤ 32 ∧
    (l.state = .timed → l.slip = false → (l.delay : Int) = 16 - l.lateness) ∧
    l.settings.window ≤ 16 ∧ 1 ≤ l.settings.limit ∧ l.settings.limit ≤ 15 ∧
    1 ≤ l.limitInForce ∧ l.limitInForce ≤ 15 ∧
    l.bad ≤ l.limitInForce ∧ l.matchCount ≤ 1 ∧ l.missed ≤ 1

/-- Parity as R1 and R8 keep it: 0 in the progressive formats; in the interlaced format the next field
carries the other parity from the field in progress, once there is one. -/
def Timing.parityAgrees (t : Timing) : Prop :=
  (t.format.interlaced = false → t.parity = false ∧ t.nextParity = false) ∧
    (t.format.interlaced = true → t.started = true → t.nextParity = !t.parity)

/-! ### What resets and completions leave -/

/-- The Timing Unit right after a POWER or PIN reset (R1, R7). -/
def Timing.asReset (t : Timing) : Prop :=
  t.ref = .absent ∧ t.counter = 0 ∧ t.nextParity = false ∧ t.format = .interlaced1080 ∧ t.good = 0 ∧
    t.wrong = 0 ∧ t.refSeen = false ∧ t.silent = true ∧ t.started = false ∧
    t.fieldPeriod = nominalTicks .interlaced1080 false ∧ t.held = nominalTicks .interlaced1080 false

/-- A lane record right after a POWER or PIN reset (R19). -/
def Lane.asReset (l : Lane) : Prop :=
  l.settings = ⟨.black, 8, 4, false⟩ ∧ l.state = .down ∧ l.lateness = 0 ∧ l.candidate = 0 ∧
    l.matchCount = 0 ∧ l.delay = 16 ∧ l.slip = false ∧ l.mismatch = false ∧ l.bad = 0 ∧ l.missed = 0

/-- The tables right after a POWER or PIN reset (R42, R44, R47). -/
def Tables.asReset (t : Tables) : Prop :=
  (∀ n, n ≤ 15 → ∀ r, look t.shapes n r = look t.shadowShapes n r ∧
    look t.shapes n r =
      match n with
      | 1 => ⟨.vertical, 2048, 2048, 16⟩
      | 2 => ⟨.diagonal, 2048, 2048, 16⟩
      | 3 => ⟨.box, 2048, 2048, 9⟩
      | 4 => ⟨.diamond, 2048, 2048, 9⟩
      | _ => ⟨.horizontal, 2048, 2048, 16⟩) ∧
  (∀ n i, n ≤ 7 → i ≤ 32 → ∀ c, look (look t.curves n c) i 0 = 32 * i ∧
    look (look t.shadowCurves n c) i 0 = 32 * i) ∧
  (∀ n, n ≤ 30 → ∀ r, look t.sources n r = look t.shadowSources n r ∧
    look t.sources n r = ⟨true, false, decide (n = 0 ∨ 25 ≤ n ∧ n ≤ 28)⟩) ∧
  t.dirtyShapes = false ∧ t.dirtyCurves = false ∧ t.dirtySources = false

/-- The engines right after a POWER or PIN reset (R105). -/
def Engines.asReset (es : Engines) : Prop :=
  (∀ e, (es.get e).state = .idle ∧ (es.get e).j = 0 ∧ (es.get e).q = 0 ∧ (es.get e).run = none ∧
    (es.get e).force = none ∧ (es.get e).next.style = .mix ∧ (es.get e).next.rate = 25) ∧
  ∀ e, e.isMe = true → (es.get e).next = ⟨.mix, 25, 0, 0, 0, .matte1, false⟩ ∧
    (es.get e).sel = ⟨true, false, false, false⟩ ∧ (es.get e).lever = ⟨0, .up, false⟩

/-- The whole state right after a POWER or PIN reset, as the manual lists it block by block (R7, R19,
R39, R42, R44, R47, R73, R105, R141, R150, R161, R172, R181). -/
def State.asReset (s : State) (cause : ResetCause) : Prop :=
  s.timing.asReset ∧ (∀ n, isLane n = true → (s.lane n).asReset) ∧ s.receiver = ⟨0, 0, none⟩ ∧
    s.waiting = ⟨[], false⟩ ∧ s.tables.asReset ∧ (∀ b, b ≤ 19 → s.bus b = 0) ∧
    s.matrix.bypass = none ∧ s.matrix.staged = none ∧ s.matrix.exchange1 = 0 ∧
    s.matrix.exchange2 = 0 ∧ s.engines.asReset ∧
    (∀ n, n ≤ 7 → s.keyer n = ⟨⟨.luma, 64, 16, false, 0, none, 4095, false⟩, false⟩) ∧
    s.ftb = .clear ∧ s.mon = .pgm ∧ s.generators.matte1 = ⟨64, 512, 512⟩ ∧
    s.generators.matte2 = ⟨64, 512, 512⟩ ∧
    s.checker = ⟨.idle, .pgm, .saturate, 0, 0, 0, false, none⟩ ∧
    s.reports = ⟨[], 0, [], false, ⟨true, true, true⟩, 0#11, cause⟩ ∧ s.packets = []

/-- `t` is `s` with a run of engine `e` completed: the completion effect of each participant of the run
record `r` made, the run record gone, the engine IDLE, its lever record now `lever`, its next settings,
next selection and force kept, and nothing else changed (R90 to R93). -/
def State.completed (s t : State) (e : EngineId) (r : RunRecord) (lever : LeverRecord) : Prop :=
  t = { s with matrix := t.matrix, keyers := t.keyers, ftb := t.ftb, engines := t.engines } ∧
    t.matrix =
      { s.matrix with
        exchange1 := s.matrix.exchange1 + (if r.elements.bkgd ∧ e = .me1 then 1 else 0)
        exchange2 := s.matrix.exchange2 + (if r.elements.bkgd ∧ e = .me2 then 1 else 0) } ∧
    (∀ n, n ≤ 7 → t.keyer n =
      if n ∈ r.elements.keys.map Prod.fst then { s.keyer n with onAir := !(s.keyer n).onAir }
      else s.keyer n) ∧
    t.ftb =
      (match r.elements.fade with
      | some .toBlack => .blacked
      | some .fromBlack => .clear
      | none => s.ftb) ∧
    t.engine e =
      { s.engine e with state := .idle, j := 0, q := 0, run := none, lever := lever } ∧
    ∀ f, f ≠ e → t.engine f = s.engine f

/-- The lever record after a completion that the lever did not make: OFFSIDE is set where the effective
position is not 0 (R99). -/
def LeverRecord.leftBehind (r : LeverRecord) : LeverRecord :=
  { r with offside := r.offside || decide (r.effective ≠ 0) }

/-- The elements of the run that a CUT of engine `e` completes: those of its run record, and in IDLE those
that it latches first (R85). -/
def State.cutElements (s : State) (e : EngineId) : Elements :=
  match (s.engine e).run with
  | some r => r.elements
  | none => s.nextElements e

/-- A command that names engine `e` is refused with EMPTY_NEXT where it would latch a run: the engine is
IDLE with an empty next selection (R83, R85). -/
def State.refusesEmpty (s : State) (e : EngineId) : Bool :=
  (s.engine e).state == .idle && s.nothingNext e

/-- In `t` the runs of the engines of `done` have completed from `s`, each with the elements that `run` gives
it, and no participant of another run has changed: exchanges recorded, on-air flags, FTB state, and the
engines themselves (R90 to R93, R99). -/
def State.completedRuns (s t : State) (done : EngineId → Bool) (run : EngineId → Elements) : Prop :=
  t.matrix =
      { s.matrix with
        exchange1 := s.matrix.exchange1 + (if done .me1 ∧ (run .me1).bkgd then 1 else 0)
        exchange2 := s.matrix.exchange2 + (if done .me2 ∧ (run .me2).bkgd then 1 else 0) } ∧
    (∀ n e, n ≤ 7 → done e = true → n ∈ (run e).keys.map Prod.fst →
      t.keyer n = { s.keyer n with onAir := !(s.keyer n).onAir }) ∧
    (∀ n, n ≤ 7 → (∀ e, done e = true → n ∉ (run e).keys.map Prod.fst) → t.keyer n = s.keyer n) ∧
    (done .ftb = false → t.ftb = s.ftb) ∧
    (done .ftb = true → (run .ftb).fade = some .toBlack → t.ftb = .blacked) ∧
    (done .ftb = true → (run .ftb).fade = some .fromBlack → t.ftb = .clear) ∧
    ∀ e, done e = true →
      t.engine e =
        { s.engine e with
          state := .idle, j := 0, q := 0, run := none, lever := (s.engine e).lever.leftBehind }

/-! ### The terms of the statements: field starts and releases -/

/-- In state `s` the row raises an output field start: the period expires outside LOCKED (R3, R6), the
alignment search times out (R5), a reference field start is followed or aligned (R4 to R6), or HOLDOVER is
entered when the held period has already passed (R6). Half periods and the mean period are those of log 7
and log 10; the rows ENTER_LOCKED and ENTER_HOLDOVER are those of log 4. -/
def State.startsField (s : State) (i : Instr) : Prop :=
  match i with
  | .outputFieldStart => s.timing.ref ≠ .locked
  | .alignmentSearchTimeout => s.timing.ref = .locked ∧ s.timing.aligning = true
  | .fieldPulse ticks lines _ =>
    (s.timing.refSeen = false ∨
      nominalTicks s.timing.format s.timing.refParity ≤ 2 * (s.timing.sinceRef + ticks)) ∧
    ∃ correct half held : Prop,
      (correct ↔
        s.timing.refLines + lines = nominalLines s.timing.format s.timing.refParity ∧
          (s.timing.format = .interlaced1080 → s.timing.refPrev ≠ some s.timing.refParity)) ∧
      (half ↔
        nominalTicks s.timing.format s.timing.parity ≤ 2 * (s.timing.sinceField + ticks)) ∧
      (held ↔ (s.timing.period1 + s.timing.period2) / 2 ≤ s.timing.sinceField + ticks) ∧
      ((s.timing.ref = .locking ∧ correct ∧ 1 ≤ s.timing.good ∧ half) ∨
        (s.timing.ref = .locked ∧ (correct ∨ s.timing.wrong = 0) ∧
          (s.timing.aligning = false ∨ half)) ∨
        (s.timing.ref = .locked ∧ ¬correct ∧ 1 ≤ s.timing.wrong ∧ held))
  | .silence =>
    s.timing.silent = false ∧ s.timing.ref = .locked ∧
      (s.timing.period1 + s.timing.period2) / 2 ≤
        s.timing.sinceField +
          (2 * nominalTicks s.timing.format s.timing.refParity - s.timing.sinceRef)
  | .enterLocked =>
    s.timing.ref = .locking ∧ s.timing.refSeen = true ∧ s.timing.sinceRef = 0 ∧
      nominalTicks s.timing.format s.timing.parity ≤ 2 * s.timing.sinceField
  | .enterHoldover _ =>
    s.timing.ref = .locked ∧ (s.timing.period1 + s.timing.period2) / 2 ≤ s.timing.sinceField
  | _ => False

/-- One entry leaves the list and is delivered: the depth falls by one, a depth of 32 or less clears the
hold flag, and the owning block applies the command or refuses it (R34, R35). -/
def State.deliverEntry (s : State) (e : Entry) : State :=
  { s with
    waiting :=
      ⟨s.waiting.entries.tail,
        s.waiting.hold && decide (32 < s.waiting.entries.tail.length)⟩ }.deliver e.tag e.command

/-- What a field start does once its entries have been delivered (R81, R67, R11, R63, R155, R174). -/
def State.finishField (s : State) : State :=
  s.stepEngines.exchange.decideLanes.takePicture.formTally.takeStatus

/-- The source that the last SELECT of bus `b` in a list of entries names, `old` where there is none
(R62). -/
def lastSelected (entries : List Entry) (b old : Nat) : Nat :=
  entries.foldl
    (fun x e =>
      match e.command with
      | .select c n => if c = b then n else x
      | _ => x)
    old

/-- The entry is a SELECT of an enabled source (R49). -/
def State.selectsEnabled (s : State) (e : Entry) : Prop :=
  ∃ b n, e.command = .select b n ∧ (s.source n).enabled = true

/-- The run `r` of engine `e` takes its last step at the next field start (R81). -/
def State.lastStep (s : State) (e : EngineId) (r : RunRecord) : Prop :=
  (s.engine e).state = .auto ∧ (s.engine e).run = some r ∧
    (s.engine e).j + 1 = r.settings.rate

/-- The A bus of a bank; its B bus is the next one (R59). -/
def bankA : Me → Nat
  | .me1 => 0
  | .me2 => 8

/-- The exchange count of a bank (R67). -/
def Matrix.exchanges (m : Matrix) : Me → Nat
  | .me1 => m.exchange1
  | .me2 => m.exchange2

/-! ### The terms of the statements: lanes -/

/-- Record `l'` is `l` after a lane field start, as far as what every such start does: the bad-line count and
the lines received at 0 (R13, R16), the limit and the chroma swap of the settings in force (R16, R18), the
start seen by the watch (R12), and settings and missed fields as they were. -/
def Lane.begins (l l' : Lane) : Prop :=
  l'.bad = 0 ∧ l'.lines = 0 ∧ l'.seen = true ∧ l'.unjudged = false ∧
    l'.limitInForce = l.settings.limit ∧ l'.swapInForce = l.settings.swap ∧
    l'.settings = l.settings ∧ l'.missed = l.missed

/-- The lane goes to DOWN at the next output field start by the watch: it is not in DOWN, has taken no lane
field start in the field in progress, and has missed one field already (R12). -/
def Lane.misses (l : Lane) : Bool := l.state != .down && !l.seen && l.missed != 0

/-- The reports `r` with the LANE_DOWN of every lane that the watch of the next field start brings to DOWN, in
order of lane number (log 14), each with detail 0 in the field that begins (R12, R177). -/
def State.laneDownPosts (s : State) (r : Reports) : Reports :=
  ((List.range 25).map (· + 1)).foldl
    (fun r n => if (s.lane n).misses then r.post .laneDown n 0 s.timing.counter else r) r

/-- The Command Receiver of `s` once lane `n` is as it is in `t`: where that is lane C and it is not in TIMED
or UNTIMED, with no packet in reception, and else as it was (R24). -/
def State.receptionAfter (s t : State) (n : Nat) : Receiver :=
  if n = 25 ∧ (t.lane 25).state ≠ .timed ∧ (t.lane 25).state ≠ .untimed then
    { s.receiver with inReception := none }
  else s.receiver

/-- Record `l'` is `l` after a lane field start `elapsed` line periods into the output field in progress,
as far as the match and the delivery go (R9, R11). The lane field is matched with that field where 2·ℓ is
below its nominal length, else with the next; `own` says that it was taken in TIMED with no slip. A match
that may be delivered stands against a later one, whose lines are not kept (log 15). The lane field may be
delivered only where it started by the presentation point. -/
def Lane.matchedBy (l l' : Lane) (t : Timing) (elapsed : Nat) (own : Bool) : Prop :=
  (2 * elapsed < nominalLines t.format t.parity →
    l'.target = .current ∧ l'.openParity = t.parity ∧ l'.matchedNext = l.matchedNext ∧
    l'.pictureNext = l.pictureNext ∧
    ((∃ m, l.matchedCurrent = some m ∧ m.own = true) →
      l'.matchedCurrent = l.matchedCurrent ∧ l'.pictureCurrent = l.pictureCurrent ∧
      l'.stored = false) ∧
    ((∀ m, l.matchedCurrent = some m → m.own = false) →
      l'.matchedCurrent = some ⟨l'.state, own && !t.presented⟩ ∧ l'.pictureCurrent = [] ∧
      l'.stored = true) ∧
    l'.matchedCurrent = some l'.decision) ∧
  (nominalLines t.format t.parity ≤ 2 * elapsed →
    l'.target = .next ∧ l'.openParity = t.nextParity ∧ l'.matchedCurrent = l.matchedCurrent ∧
    l'.pictureCurrent = l.pictureCurrent ∧
    ((∃ m, l.matchedNext = some m ∧ m.own = true) →
      l'.matchedNext = l.matchedNext ∧ l'.pictureNext = l.pictureNext ∧ l'.stored = false) ∧
    ((∀ m, l.matchedNext = some m → m.own = false) →
      l'.matchedNext = some ⟨l'.state, own⟩ ∧ l'.pictureNext = [] ∧ l'.stored = true) ∧
    (t.presented = true → l'.decision = l.decision) ∧
    (t.presented = false →
      l'.decision = match l.matchedCurrent with | some m => m | none => ⟨l'.state, false⟩))

/-- Record `l'` is `l` with a received line in the alignment buffer: an active line goes, with Cb and Cr
exchanged where chroma swap is in force, behind the lines of the lane field matched with the same output
field (R10, R185); a line beyond the active ones, and one of a lane field that is not kept, into none. -/
def Lane.keptLine (l l' : Lane) (f : Format) (samples : Line) : Prop :=
  ∀ line, line = (if l.swapInForce then swapChroma samples else samples) →
    l'.pictureCurrent =
      (if l.stored = true ∧ l.lines < activeLines f ∧ l.target = .current then
        l.pictureCurrent ++ [line] else l.pictureCurrent) ∧
    l'.pictureNext =
      (if l.stored = true ∧ l.lines < activeLines f ∧ l.target = .next then
        l.pictureNext ++ [line] else l.pictureNext)

/-! ### The terms of the statements: the value sets of R27 and the order of R33 -/

/-- The parameters of a command lie in the sets that R27 gives; those that R28 clamps are not tested. -/
def inValueSets : Command → Prop
  | .select bus source => bus ≤ 19 ∧ source ≤ 30
  | .setNext _ _ => True
  | .setTransition _ t => t.shape ≤ 15 ∧ t.border ≤ 255 ∧ t.softness ≤ 255
  | .take set | .cut set | .hold set | .resume set | .release set => ∃ e : EngineId, e.isIn set = true
  | .lever _ _ => True
  | .force _ _ => True
  | .setKey keyer k =>
    keyer ≤ 7 ∧ k.clip ≤ 1023 ∧ k.curve ≤ 7 ∧ (∀ n, k.maskShape = some n → n ≤ 15) ∧
      k.maskSize ≤ 4095
  | .setMatte _ _ => True
  | .setLane lane l => 1 ≤ lane ∧ lane ≤ 25 ∧ 1 ≤ l.limit ∧ l.limit ≤ 15
  | .reseek lanes =>
    (∃ n, lanes.getLsbD n = true) ∧ ∀ n, lanes.getLsbD n = true → 1 ≤ n ∧ n ≤ 25
  | .setFormat _ => True
  | .loadShape n r => n ≤ 15 ∧ r.cu ≤ 4095 ∧ r.cv ≤ 4095 ∧ 1 ≤ r.aspect ∧ r.aspect ≤ 64
  | .loadCurve n first points =>
    n ≤ 7 ∧ first ≤ 32 ∧ 1 ≤ points.length ∧ points.length ≤ 33 ∧ first + points.length ≤ 33
  | .loadSource n _ => n ≤ 30
  | .commit kinds => kinds.shapes = true ∨ kinds.curves = true ∨ kinds.sources = true
  | .setMonitor point => ∀ n, point = .source n → n ≤ 30
  | .checkerStart point _ => ∀ n, point = .lane n → 1 ≤ n ∧ n ≤ 24
  | .checkerStop | .snapshotKeep | .snapshotClear | .clearConditionsAll => True
  | .clearConditionsOne _ subject => subject ≤ 25
  | .setReports _ _ => True
  | .purgeAll | .purgeTag _ => True
  | .bypass source => ∀ n, source = some n → n ≤ 28
  | .engineReset => True

/-- The bytes of a payload hold values of the sets that R27, R183 and the codes of 11.3 give for its kind,
at the places of 11.4; the fields that R28 clamps, and those that R183 leaves unread, are not tested. -/
def payloadInSets (p : List Byte) : Prop :=
  match byteAt p 0 with
  | 1 => byteAt p 6 ≤ 19 ∧ byteAt p 7 ≤ 30
  | 2 => byteAt p 6 ≤ 1 ∧ byteAt p 7 ≤ 15
  | 3 => byteAt p 6 ≤ 4 ∧ byteAt p 7 ≤ 1 ∧ byteAt p 10 ≤ 15 ∧ byteAt p 13 ≤ 1 ∧ byteAt p 14 ≤ 1
  | 4 | 5 | 6 | 7 | 8 => 1 ≤ byteAt p 6 ∧ byteAt p 6 ≤ 31
  | 9 => byteAt p 6 ≤ 1
  | 10 => byteAt p 6 ≤ 4
  | 11 =>
    byteAt p 6 ≤ 7 ∧ byteAt p 7 ≤ 1 ∧ fieldAt p 8 ≤ 1023 ∧ byteAt p 12 ≤ 1 ∧ byteAt p 13 ≤ 7 ∧
      (byteAt p 14 ≤ 15 ∨ byteAt p 14 = 255) ∧ fieldAt p 15 ≤ 4095 ∧ byteAt p 17 ≤ 1
  | 12 => byteAt p 6 ≤ 1
  | 13 =>
    1 ≤ byteAt p 6 ∧ byteAt p 6 ≤ 25 ∧ byteAt p 7 ≤ 2 ∧ 1 ≤ byteAt p 9 ∧ byteAt p 9 ≤ 15 ∧
      byteAt p 10 ≤ 1
  | 14 => longAt p 6 ≠ 0 ∧ longAt p 6 % 2 = 0 ∧ longAt p 6 < 2 ^ 26
  | 15 => byteAt p 6 ≤ 2
  | 16 =>
    byteAt p 6 ≤ 15 ∧ byteAt p 7 ≤ 4 ∧ fieldAt p 8 ≤ 4095 ∧ fieldAt p 10 ≤ 4095 ∧
      1 ≤ byteAt p 12 ∧ byteAt p 12 ≤ 64
  | 17 =>
    byteAt p 6 ≤ 7 ∧ byteAt p 7 ≤ 32 ∧ 1 ≤ byteAt p 8 ∧ byteAt p 8 ≤ 33 ∧
      byteAt p 7 + byteAt p 8 ≤ 33
  | 18 => byteAt p 6 ≤ 30 ∧ byteAt p 7 ≤ 7
  | 19 => 1 ≤ byteAt p 6 ∧ byteAt p 6 ≤ 7
  | 20 => byteAt p 6 ≤ 30 ∨ 32 ≤ byteAt p 6 ∧ byteAt p 6 ≤ 36
  | 21 =>
    byteAt p 6 = 0 ∨ byteAt p 6 = 1 ∧ byteAt p 8 ≤ 1 ∧
      (1 ≤ byteAt p 7 ∧ byteAt p 7 ≤ 24 ∨ 32 ≤ byteAt p 7 ∧ byteAt p 7 ≤ 35 ∨ byteAt p 7 = 37)
  | 22 => byteAt p 6 ≤ 1
  | 23 => byteAt p 6 = 0 ∨ byteAt p 6 = 1 ∧ byteAt p 7 ≤ 10 ∧ byteAt p 8 ≤ 25
  | 24 => byteAt p 6 ≤ 7 ∧ fieldAt p 7 ≤ 2047
  | 25 => byteAt p 6 ≤ 1
  | 26 => byteAt p 6 ≤ 28 ∨ byteAt p 6 = 255
  | 27 => True
  | _ => False

/-- The list `new` is `old` with the entry after every one whose due field is its own or earlier, and
before every later one, read forward from `n` (R33): in a list in order of due field that is one place
alone, so that entries of one due field stand in order of arrival. -/
def insertedInPlace (n : FieldNo) (e : Entry) (old new : List Entry) : Prop :=
  ∃ before after, old = before ++ after ∧ new = before ++ e :: after ∧
    (∀ x ∈ before, (x.due - n).toNat ≤ (e.due - n).toNat) ∧
    (∀ x, after.head? = some x → (e.due - n).toNat < (x.due - n).toNat) ∧
    (old.Pairwise (fun a b => (a.due - n).toNat ≤ (b.due - n).toNat) →
      ∀ x ∈ after, (e.due - n).toNat < (x.due - n).toNat)

/-! ### The terms of the statements: pictures -/

/-- The colour that a lane's substitute shows in the field in progress (R11, R159). -/
def State.substituteColour (s : State) (n : Nat) : Colour :=
  match look s.picture.substitutes (n - 1) .black with
  | .black => ⟨64, 512, 512⟩
  | .matte1 => s.picture.matte1
  | .matte2 => s.picture.matte2

/-- Sample `x` is what lane `n` delivers at a place of a line of the field in progress (R11): of its own
picture the sample received there, none where the line is short of the place (R16), and its substitute
where the lane delivers that or has not received the line (log 15). -/
def State.delivers (s : State) (n line place : Nat) (x : Sample) : Prop :=
  ((s.lane n).decision.own = true → ∀ samples, (s.lane n).pictureCurrent[line]? = some samples →
    (∀ w, samples[place]? = some w → x = .of w.toNat) ∧
    (samples.length ≤ place → x.filled = false)) ∧
  ((s.lane n).decision.own = false ∨ (s.lane n).pictureCurrent.length ≤ line →
    x = .of (Colour.at (s.substituteColour n) place))

/-- The column of the pixel whose coefficients a place takes: its own pixel for luma, the left pixel of
the pair for chroma (R108, R131). -/
def columnOf (place : Nat) : Nat := if place % 2 = 1 then place / 2 else 2 * (place / 4)

/-- The normalised coordinates of the pixel whose coefficients a place of a field line takes (R108). -/
def State.uv (s : State) (line place : Nat) : Nat × Nat :=
  (columnOf place * 4096 / width s.timing.format,
    (if s.timing.format = .interlaced1080 then 2 * line + s.timing.parity.toNat else line) * 4096 /
      height s.timing.format)

/-! ### The terms of the statements: reports -/

/-- The condition entries that NOTICES carries, of the unmasked ones `unmasked` in order of addition
(R178): at most 8 and as many as there are, kinds in the order of their codes (11.3), entries of one kind
in order of addition, and none left out while one of a later kind is carried. -/
def chosenByPriority (unmasked chosen : List Condition) : Prop :=
  chosen.length = min 8 unmasked.length ∧
    chosen.Pairwise (fun a b => a.kind.code ≤ b.kind.code) ∧
    ∀ k : ConditionKind,
      chosen.filter (·.kind == k) <+: unmasked.filter (·.kind == k) ∧
        (chosen.filter (·.kind == k) ≠ unmasked.filter (·.kind == k) →
          chosen.length = 8 ∧ ∀ c ∈ chosen, c.kind.code ≤ k.code)

/-- The bytes of STATUS at the places of R184's table, for the items `v` of the field, with five engines;
a number too large for its place is carried by its low bits. -/
def State.statusLaidOut (s : State) (v : StatusView) (p : List Byte) : Prop :=
  fieldAt p 0 = v.number.toNat ∧ byteAt p 2 = v.parity.toNat ∧ byteAt p 3 = v.format.code ∧
    byteAt p 4 = v.ref.code ∧ byteAt p 5 = v.cause.code ∧ byteAt p 6 = v.depth % 256 ∧
    byteAt p 7 = v.hold.toNat ∧
    byteAt p 8 = (match v.bypass with | some n => n % 256 | none => 255) ∧
    (∀ e r, v.engines[e]? = some r →
      byteAt p (9 + 8 * e) = r.state.code ∧ fieldAt p (10 + 8 * e) = r.j % 65536 ∧
      fieldAt p (12 + 8 * e) = r.rate % 65536 ∧ fieldAt p (14 + 8 * e) = r.shown % 65536 ∧
      byteAt p (16 + 8 * e) = r.forced.toNat) ∧
    (∀ n, n ≤ 7 → (byteAt p 49).testBit n = v.onAir.getD n false) ∧ byteAt p 50 = v.ftb.code ∧
    fieldAt p 51 = v.lever1.last % 65536 ∧ byteAt p 53 = v.lever1.sense.code ∧
    byteAt p 54 = v.lever1.offside.toNat ∧ fieldAt p 55 = v.lever2.last % 65536 ∧
    byteAt p 57 = v.lever2.sense.code ∧ byteAt p 58 = v.lever2.offside.toNat ∧
    (byteAt p 59).testBit 0 = v.dirtyShapes ∧ (byteAt p 59).testBit 1 = v.dirtyCurves ∧
    (byteAt p 59).testBit 2 = v.dirtySources ∧ byteAt p 59 ≤ 7 ∧
    (∀ n, 1 ≤ n → n ≤ 25 → byteAt p (59 + n) = (s.lane n).decision.state.code) ∧
    byteAt p 85 = v.checker.code ∧
    (∀ x, s.checker.snapshot = some x →
      byteAt p 86 = 1 ∧ byteAt p 87 = x.state.code ∧ fieldAt p 88 = x.checked % 65536 ∧
      fieldAt p 90 = x.errored % 65536 ∧ fieldAt p 92 = x.erroredFields % 65536 ∧
      byteAt p 94 = x.overflow.toNat ∧ fieldAt p 95 = x.field.toNat) ∧
    (s.checker.snapshot = none → ∀ i, 86 ≤ i → i ≤ 96 → byteAt p i = 0)

/-- The bytes of TALLY at the places of R184's table: member n of a map is the bit of value 2 to the power
n of the whole field (R183). -/
def State.tallyLaidOut (s : State) (p : List Byte) : Prop :=
  fieldAt p 0 = s.status.number.toNat ∧
    (∀ n, (longAt p 2).testBit n = look s.tally.program n false) ∧
    ∀ n, (longAt p 6).testBit n = look s.tally.preview n false

/-- The bytes of NOTICES at the places of R184's table; `chosen` are the condition entries carried. -/
def State.noticesLaidOut (s : State) (chosen : List Condition) (p : List Byte) : Prop :=
  ∀ n c, n = s.reports.notices.length → c = chosen.length →
    fieldAt p 0 = s.status.number.toNat ∧ byteAt p 2 = n % 256 ∧
    byteAt p 3 = s.reports.overflow % 256 ∧
    (∀ i x, s.reports.notices[i]? = some x →
      fieldAt p (4 + 5 * i) = x.tag.toNat ∧ byteAt p (6 + 5 * i) = x.kind % 256 ∧
      byteAt p (7 + 5 * i) = x.reason.code ∧ byteAt p (8 + 5 * i) = x.subject % 256) ∧
    byteAt p (4 + 5 * n) = c % 256 ∧
    (∀ i x, chosen[i]? = some x → ∀ at0, at0 = 5 + 5 * n + 9 * i →
      byteAt p at0 = x.kind.code ∧ byteAt p (at0 + 1) = x.subject % 256 ∧
      fieldAt p (at0 + 2) = x.first.toNat ∧ fieldAt p (at0 + 4) = x.last.toNat ∧
      byteAt p (at0 + 6) = x.count % 256 ∧ (fieldAt p (at0 + 7) : Int) = x.detail % 65536) ∧
    byteAt p (5 + 5 * n + 9 * c) = s.reports.conditions.length % 256 ∧
    byteAt p (6 + 5 * n + 9 * c) = s.reports.listFull.toNat

/-! ### The terms of the statements: tally -/

/-- The fill bus of a keyer; its key source bus is the next one (R121). -/
def keyBus (n : Nat) : Nat := [2, 4, 6, 10, 12, 14, 16, 18].getD n 0

/-- The background weight of a bank under a view (R152). -/
def State.weightOfBackground (s : State) (ahead : Bool) (e : EngineId) : Nat :=
  if ahead then if (s.lookAhead e).bkgd then 1024 else 0
  else
    match s.driveBackground e with
    | some d => d.shown
    | none => 0

/-- The weight of a keyer under a view; a downstream keyer's is its displayed kf in both (R152). -/
def State.weightOfKey (s : State) (ahead : Bool) (n : Nat) : Nat :=
  if ahead = true ∧ n ≤ 5 then s.aheadFade n else s.keyFade n

/-- A bus contributes under a view: a bank's A bus at a background weight below 1024 and its B bus above
0, and both buses of a keyer at a weight above 0 unless its mask is an inverted full one (R152). -/
def State.busContributes (s : State) (ahead : Bool) (b : Nat) : Prop :=
  (∃ m : Me, (b = bankA m ∧ s.weightOfBackground ahead m.engine < 1024) ∨
    (b = bankA m + 1 ∧ 0 < s.weightOfBackground ahead m.engine)) ∨
  ∃ n, n ≤ 7 ∧ (b = keyBus n ∨ b = keyBus n + 1) ∧ 0 < s.weightOfKey ahead n ∧
    ¬((s.keyer n).settings.maskShape ≠ none ∧ (s.keyer n).settings.maskSize = 4095 ∧
      (s.keyer n).settings.maskInvert = true)

/-- A source is held on a contributing bus of bank 2 or of the downstream stage (R152, R153). -/
def State.heldDownstream (s : State) (ahead : Bool) (n : Nat) : Prop :=
  ∃ b, 8 ≤ b ∧ b ≤ 19 ∧ s.busContributes ahead b ∧ s.bus b = n

/-- A source is a member of a tally set formed under a view of bank 2 (R152 to R156): enabled, not
exempt and not 30, and held on a contributing bus, or on one of bank 1's displayed view where an enabled
source 29 is. -/
def State.inTally (s : State) (ahead : Bool) (n : Nat) : Prop :=
  n ≠ 30 ∧ (s.source n).enabled = true ∧ (s.source n).exempt = false ∧
    (s.heldDownstream ahead n ∨
      ((s.source 29).enabled = true ∧ s.heldDownstream ahead 29 ∧
        ∃ b, b ≤ 7 ∧ s.busContributes false b ∧ s.bus b = n))

end Sys2Proof.Machine
end

