-- ==== Sys2Proof/WellFormed.lean ====
section
/-!
DEFINITION. When a row is well formed: a panel command has its parameters in the value sets of R27,
does not break the re-entry restriction (R60) and carries no value that R28 would clamp; an event names
a lane of the part.
-/

namespace Sys2Proof

/-- The panel command and the tag that a row carries; the other rows are events. -/
def Instr.command? : Instr → Option (Tag × Command)
  | .select tag bus source => some (tag, .select bus source)
  | .setNext tag me sel => some (tag, .setNext me sel)
  | .setTransition tag e t => some (tag, .setTransition e t)
  | .take tag set => some (tag, .take set)
  | .cut tag set => some (tag, .cut set)
  | .hold tag set => some (tag, .hold set)
  | .resume tag set => some (tag, .resume set)
  | .release tag set => some (tag, .release set)
  | .lever tag me position => some (tag, .lever me position)
  | .force tag e value => some (tag, .force e value)
  | .setKey tag keyer k => some (tag, .setKey keyer k)
  | .setMatte tag m c => some (tag, .setMatte m c)
  | .setLane tag lane l => some (tag, .setLane lane l)
  | .reseek tag lanes => some (tag, .reseek lanes)
  | .setFormat tag f => some (tag, .setFormat f)
  | .loadShape tag n r => some (tag, .loadShape n r)
  | .loadCurve tag n first points => some (tag, .loadCurve n first points)
  | .loadSource tag n r => some (tag, .loadSource n r)
  | .commit tag kinds => some (tag, .commit kinds)
  | .setMonitor tag point => some (tag, .setMonitor point)
  | .checkerStart tag point mode => some (tag, .checkerStart point mode)
  | .checkerStop tag => some (tag, .checkerStop)
  | .snapshotKeep tag => some (tag, .snapshotKeep)
  | .snapshotClear tag => some (tag, .snapshotClear)
  | .clearConditionsAll tag => some (tag, .clearConditionsAll)
  | .clearConditionsOne tag kind subject => some (tag, .clearConditionsOne kind subject)
  | .setReports tag enables mask => some (tag, .setReports enables mask)
  | .purgeAll tag => some (tag, .purgeAll)
  | .purgeTag tag named => some (tag, .purgeTag named)
  | .bypass tag source => some (tag, .bypass source)
  | .engineReset tag => some (tag, .engineReset)
  | .powerReset | .pinReset | .fieldPulse _ _ _ | .enterLocked | .enterHoldover _ | .silence
  | .alignmentSearchTimeout | .outputFieldStart | .laneDown _ | .laneFieldStart _ _ | .laneLine _ _ _
  | .laneErrors _ | .controlPacket _ | .controlBlankingEnd | .checkerJudgment | .reportFormation
  | .presentationPoint | .packetInReceptionStart _ => none

/-- The lane that a lane event names. -/
def Instr.lane? : Instr → Option Nat
  | .laneDown n | .laneFieldStart n _ | .laneLine n _ _ | .laneErrors n => some n
  | _ => none

/-- A well-formed row. -/
def Instr.wellFormed (i : Instr) : Bool :=
  i.command?.all (fun tc => tc.2.admissible) && i.lane?.all (fun n => 1 ≤ n && n ≤ 25)

end Sys2Proof
end

