-- ==== Sys2Proof/Certificates/Slice0/Obligations.lean ====
section
/-!
DEFINITION. The statements for the provers, chapter by chapter. A statement of one command's effect gives
its frame: either the next state is `s` with the changed fields written out, or there is an equation
`t = …s with the fields of t that may differ…` beside what those fields hold. An output field start changes
every block; a statement about it says what one block does in it. Every statement about a row
that is a panel command rests on log 3: such a row is taken and delivered at once.
-/

open Sys2Proof Sys2Proof.Machine

/-! ## The queue -/

/-- One step takes the command at the front of the queue and runs it with the queue's rest; on an empty
queue the block idles (the model's queue: log 1). -/
def Obligations.StepRunsTheFrontCommand : Prop :=
  (∀ (c : Instr) (rest : List Instr) (s : State), s.pending = c :: rest →
    step s = exec c { s with pending := rest }) ∧
  ∀ s : State, s.pending = [] → step s = .next s

/-- Every command of the table answers a next state, in every state, and leaves the queue of waiting
commands as it is (log 1). -/
def Obligations.EveryCommandCompletesAndKeepsTheQueue : Prop :=
  ∀ (c : Instr) (s : State), ∃ t, exec c s = .next t ∧ t.pending = s.pending

/-! ## Resets -/

/-- A POWER and a PIN reset set every register to its reset value, the reset cause apart the same ones
(R7, R19, R39, R42, R44, R47, R73, R105, R141, R150, R161, R172, R181); `State.reset` is that state. That
the held period and the first field period are those of parity 0, 563 lines, is log 7; that the waiting
rows stay is the model's queue (log 1, log 33). -/
def Obligations.PowerAndPinResetSetEveryRegister : Prop :=
  (∀ s : State, ∃ t, exec .powerReset s = .next t ∧ t.asReset .power ∧ t.pending = s.pending) ∧
  (∀ s : State, ∃ t, exec .pinReset s = .next t ∧ t.asReset .pin ∧ t.pending = s.pending) ∧
  State.reset.asReset .power

/-- R39: a POWER or PIN reset empties the Pending List, clears the hold flag, zeroes the Command
Receiver's counts, discards a packet in reception, empties the staged bypass request and returns the
field counter to 0; an ENGINE RESET, here the row taken at once (log 3), empties the list (R38) and leaves
the Command Receiver and the staged bypass request as they are. -/
def Obligations.ResetsEmptyThePendingList : Prop :=
  (∀ (s : State) (c : Instr), c = .powerReset ∨ c = .pinReset → ∃ t, exec c s = .next t ∧
    t.waiting.entries = [] ∧ t.waiting.hold = false ∧ t.receiver.taken = 0 ∧ t.receiver.dropped = 0 ∧
    t.receiver.inReception = none ∧ t.matrix.staged = none ∧ t.timing.counter = 0) ∧
  ∀ (s : State) (tag : Tag), ∃ t, exec (.engineReset tag) s = .next t ∧
    t.waiting.entries = [] ∧ t.waiting.hold = false ∧ t.receiver = s.receiver ∧
    t.matrix.staged = s.matrix.staged

/-- An ENGINE RESET removes the waiting entries, abandons every run with no completion effect, clears the
forces and the lever records, puts the checker in IDLE, empties the notice list and sets the reset cause;
all else is kept (R38, R104, R172, R181). -/
def Obligations.EngineResetAbandonsEveryRun : Prop :=
  ∀ (tag : Tag) (s : State), ∃ t, exec (.engineReset tag) s = .next t ∧
    t =
      { s with
        waiting := ⟨[], false⟩, engines := t.engines, checker := t.checker, reports := t.reports } ∧
    (∀ e : EngineId,
      (t.engine e).state = .idle ∧ (t.engine e).j = 0 ∧ (t.engine e).q = 0 ∧
      (t.engine e).run = none ∧ (t.engine e).force = none ∧
      (t.engine e).next = (s.engine e).next ∧ (t.engine e).sel = (s.engine e).sel ∧
      (e.isMe = true → (t.engine e).lever = ⟨0, .up, false⟩)) ∧
    t.checker =
      { s.checker with
        state := .idle, checked := 0, errored := 0, erroredFields := 0, overflow := false
        snapshot := none } ∧
    t.reports = { s.reports with notices := [], overflow := 0, cause := .command }

/-! ## The Timing Unit -/

/-- A field pulse less than half a field period after the last accepted one is rejected: the clock and
the count of line pulses run on, and nothing else changes (R2). An accepted one in ABSENT or HOLDOVER,
the first after a reset among them whatever its time (R7), puts the unit in LOCKING with good-field count
0 and raises no output field start; the period in use is the held one from HOLDOVER (R3, R4). The
reference field so ended is the one before the first to be judged (R2). Half a field period is that of the
parity of the reference field in progress, and time is counted in ticks (log 7, log 5). That the reference
field so ended is kept as the one before, also across ABSENT and HOLDOVER, with none before the first after a
reset, is log 9, and that the pulse's parity is kept in every format is log 38. -/
def Obligations.ReferenceStartEntersLocking : Prop :=
  ∀ (ticks lines : Nat) (opens : Parity) (s : State),
    (s.timing.refSeen = true →
      2 * (s.timing.sinceRef + ticks) < nominalTicks s.timing.format s.timing.refParity →
      exec (.fieldPulse ticks lines opens) s =
        .next
          { s with
            timing :=
              { s.timing with
                sinceField := s.timing.sinceField + ticks
                sinceRef := s.timing.sinceRef + ticks
                refLines := s.timing.refLines + lines } }) ∧
    (s.timing.refSeen = false ∨
        nominalTicks s.timing.format s.timing.refParity ≤ 2 * (s.timing.sinceRef + ticks) →
      s.timing.ref = .absent ∨ s.timing.ref = .holdover →
      ∃ t, exec (.fieldPulse ticks lines opens) s = .next t ∧ t = { s with timing := t.timing } ∧
        t.timing.ref = .locking ∧ t.timing.good = 0 ∧ t.timing.silent = false ∧
        t.timing.refSeen = true ∧ t.timing.sinceRef = 0 ∧ t.timing.refLines = 0 ∧
        t.timing.refParity = opens ∧
        t.timing.refPrev = (if s.timing.refSeen then some s.timing.refParity else none) ∧
        t.timing.heldInUse = decide (s.timing.ref = .holdover) ∧ t.timing.held = s.timing.held ∧
        t.timing.counter = s.timing.counter ∧ t.timing.nextParity = s.timing.nextParity ∧
        t.timing.field = s.timing.field ∧ t.timing.fieldPeriod = s.timing.fieldPeriod ∧
        t.timing.sinceField = s.timing.sinceField + ticks)

/-- A reference field start in LOCKING judges the reference field it ends: an incorrect one returns the
good-field count to 0, a first correct one counts 1, a second enters LOCKED with wrong-field count 0
(R2, R4). That start is itself the aligned field start when it comes at least half a field period after
the output field began; the field so begun takes the parity that the pulse opens (R5). The half periods,
for acceptance and for alignment, are those of log 7, in ticks (log 5); where no reference field stands
before the one judged the parity test holds (log 9). -/
def Obligations.LockingJudgesReferenceFields : Prop :=
  ∀ (ticks lines : Nat) (opens : Parity) (s : State) (correct : Prop),
    s.timing.ref = .locking →
    (s.timing.refSeen = false ∨
      nominalTicks s.timing.format s.timing.refParity ≤ 2 * (s.timing.sinceRef + ticks)) →
    (correct ↔
      s.timing.refLines + lines = nominalLines s.timing.format s.timing.refParity ∧
        (s.timing.format = .interlaced1080 → s.timing.refPrev ≠ some s.timing.refParity)) →
    ∃ t, exec (.fieldPulse ticks lines opens) s = .next t ∧
      (¬correct → t = { s with timing := t.timing } ∧ t.timing.ref = .locking ∧
        t.timing.good = 0 ∧ t.timing.counter = s.timing.counter ∧
        t.timing.field = s.timing.field) ∧
      (correct → s.timing.good = 0 → t = { s with timing := t.timing } ∧ t.timing.ref = .locking ∧
        t.timing.good = 1 ∧ t.timing.counter = s.timing.counter ∧
        t.timing.field = s.timing.field) ∧
      (correct → s.timing.good = 1 →
        2 * (s.timing.sinceField + ticks) < nominalTicks s.timing.format s.timing.parity →
        t = { s with timing := t.timing } ∧ t.timing.ref = .locked ∧ t.timing.wrong = 0 ∧
          t.timing.aligning = true ∧ t.timing.counter = s.timing.counter ∧
          t.timing.field = s.timing.field) ∧
      (correct → s.timing.good = 1 →
        nominalTicks s.timing.format s.timing.parity ≤ 2 * (s.timing.sinceField + ticks) →
        t.timing.field = s.timing.counter ∧ t.timing.counter = s.timing.counter + 1 ∧
          ((∀ e ∈ s.waiting.entries, e.due ≠ s.timing.counter) →
            t.timing.ref = .locked ∧ t.timing.aligning = false ∧ t.timing.wrong = 0 ∧
              (s.timing.format = .interlaced1080 →
                t.timing.parity = opens ∧ t.timing.nextParity = !opens)))

/-- In LOCKED after the aligned field start a reference field start raises an output field start where
the field it ends is correct, or is the first incorrect one; a second incorrect field enters HOLDOVER at
the mean period of the last two correct fields with REF_LOST detail 1 and is not followed, unless the held
period has already passed, when a field starts at once, in HOLDOVER with REF_LOST recorded before any
LANE_DOWN of that start, and runs at the held period (R6). In the alignment search a start less than half
a field period after the output field began is not followed, and a later one is the aligned field start:
with nothing due at it, the search ends, and in the interlaced format the field takes the parity that the
pulse opens and next parity the other. A correct field returns the wrong-field count to 0 and an incorrect
one raises it there too (R5). Half periods: log 7; the parity test: log 9; the mean period: log 10. -/
def Obligations.LockedFollowsTheReference : Prop :=
  ∀ (ticks lines : Nat) (opens : Parity) (s : State) (correct : Prop),
    s.timing.ref = .locked →
    (s.timing.refSeen = false ∨
      nominalTicks s.timing.format s.timing.refParity ≤ 2 * (s.timing.sinceRef + ticks)) →
    (correct ↔
      s.timing.refLines + lines = nominalLines s.timing.format s.timing.refParity ∧
        (s.timing.format = .interlaced1080 → s.timing.refPrev ≠ some s.timing.refParity)) →
    ∃ t, exec (.fieldPulse ticks lines opens) s = .next t ∧
      (correct → s.timing.aligning = false →
        t.timing.field = s.timing.counter ∧ t.timing.counter = s.timing.counter + 1 ∧
          t.timing.wrong = 0) ∧
      (¬correct → s.timing.wrong = 0 → s.timing.aligning = false →
        t.timing.field = s.timing.counter ∧ t.timing.counter = s.timing.counter + 1 ∧
          t.timing.wrong = 1) ∧
      (correct ∨ s.timing.wrong = 0 → s.timing.aligning = true →
        2 * (s.timing.sinceField + ticks) < nominalTicks s.timing.format s.timing.parity →
        t = { s with timing := t.timing } ∧ t.timing.ref = .locked ∧ t.timing.aligning = true ∧
          (correct → t.timing.wrong = 0) ∧ (¬correct → t.timing.wrong = 1) ∧
          t.timing.counter = s.timing.counter ∧ t.timing.field = s.timing.field) ∧
      (correct ∨ s.timing.wrong = 0 → s.timing.aligning = true →
        nominalTicks s.timing.format s.timing.parity ≤ 2 * (s.timing.sinceField + ticks) →
        t.timing.field = s.timing.counter ∧ t.timing.counter = s.timing.counter + 1 ∧
          (correct → t.timing.wrong = 0) ∧ (¬correct → t.timing.wrong = 1) ∧
          ((∀ e ∈ s.waiting.entries, e.due ≠ s.timing.counter) →
            t.timing.ref = .locked ∧ t.timing.aligning = false ∧
              (s.timing.format = .interlaced1080 →
                t.timing.parity = opens ∧ t.timing.nextParity = !opens))) ∧
      (¬correct → s.timing.wrong = 1 →
        s.timing.sinceField + ticks < (s.timing.period1 + s.timing.period2) / 2 →
        t = { s with timing := t.timing, reports := t.reports } ∧ t.timing.ref = .holdover ∧
          t.timing.held = (s.timing.period1 + s.timing.period2) / 2 ∧ t.timing.heldInUse = true ∧
          t.timing.fieldPeriod = t.timing.held ∧ t.timing.counter = s.timing.counter ∧
          t.timing.field = s.timing.field ∧
          t.reports = s.reports.post .refLost 0 1 s.timing.field) ∧
      (¬correct → s.timing.wrong = 1 →
        (s.timing.period1 + s.timing.period2) / 2 ≤ s.timing.sinceField + ticks →
        t.timing.field = s.timing.counter ∧ t.timing.counter = s.timing.counter + 1 ∧
          ((∀ e ∈ s.waiting.entries, e.due ≠ s.timing.counter) →
            t.timing.ref = .holdover ∧
              t.timing.held = (s.timing.period1 + s.timing.period2) / 2 ∧
              t.timing.heldInUse = true ∧ t.timing.fieldPeriod = t.timing.held ∧
              t.reports = s.laneDownPosts (s.reports.post .refLost 0 1 s.timing.field)))

/-- Silence, two field periods after the last accepted reference field start: LOCKING returns to ABSENT
and gives the held period up, with no condition; ABSENT and HOLDOVER go on as they are; LOCKED goes to
HOLDOVER with REF_LOST detail 0, and where the held period has already passed a field starts at once (R2, R4,
R6). Where the reference is silent already nothing happens
(log 35). The two field periods are those of the parity of the reference field in progress (log 7), and
the mean period is floored (log 10). -/
def Obligations.SilenceActsByTheReferenceState : Prop :=
  ∀ s : State, ∃ t, exec .silence s = .next t ∧
    (s.timing.silent = true → t = s) ∧
    (s.timing.silent = false →
      (s.timing.ref = .absent ∨ s.timing.ref = .holdover →
        t = { s with timing := t.timing } ∧ t.timing.silent = true ∧ t.timing.ref = s.timing.ref ∧
          t.timing.heldInUse = s.timing.heldInUse ∧ t.timing.fieldPeriod = s.timing.fieldPeriod ∧
          t.timing.counter = s.timing.counter) ∧
      (s.timing.ref = .locking →
        t = { s with timing := t.timing } ∧ t.timing.silent = true ∧ t.timing.ref = .absent ∧
          t.timing.heldInUse = false ∧ t.timing.fieldPeriod = s.timing.fieldPeriod ∧
          t.timing.counter = s.timing.counter) ∧
      ∀ now, now = s.timing.sinceField +
          (2 * nominalTicks s.timing.format s.timing.refParity - s.timing.sinceRef) →
        s.timing.ref = .locked →
        (now < (s.timing.period1 + s.timing.period2) / 2 →
          t = { s with timing := t.timing, reports := t.reports } ∧ t.timing.silent = true ∧
            t.timing.ref = .holdover ∧
            t.timing.held = (s.timing.period1 + s.timing.period2) / 2 ∧
            t.timing.counter = s.timing.counter ∧
            t.reports = s.reports.post .refLost 0 0 s.timing.field) ∧
        ((s.timing.period1 + s.timing.period2) / 2 ≤ now →
          t.timing.field = s.timing.counter ∧ t.timing.counter = s.timing.counter + 1 ∧
            ((∀ e ∈ s.waiting.entries, e.due ≠ s.timing.counter) →
              t.timing.silent = true ∧ t.timing.ref = .holdover ∧
                t.timing.held = (s.timing.period1 + s.timing.period2) / 2 ∧
                t.timing.heldInUse = true ∧ t.timing.fieldPeriod = t.timing.held ∧
                t.reports = s.laneDownPosts (s.reports.post .refLost 0 0 s.timing.field))))

/-- The rows ENTER_LOCKED and ENTER_HOLDOVER (log 4): in LOCKING the first enters LOCKED with wrong-field
count 0 and begins the alignment search (R4, R5), and where it comes at a reference field start that may be
the aligned field start, an output field starts; in LOCKED the second enters HOLDOVER at the mean period with
REF_LOST, and where that period has already passed a field starts at once (R6). In any other reference state
neither has an effect. The half period is that of log 7, and the mean period is floored (log 10). -/
def Obligations.EnterLockedAndEnterHoldover : Prop :=
  (∀ s : State, ∃ t, exec .enterLocked s = .next t ∧
    (s.timing.ref ≠ .locking → t = s) ∧
    (s.timing.ref = .locking →
      s.timing.refSeen = false ∨ s.timing.sinceRef ≠ 0 ∨
        2 * s.timing.sinceField < nominalTicks s.timing.format s.timing.parity →
      t =
        { s with
          timing :=
            { s.timing with
              ref := .locked, good := 2, wrong := 0, aligning := true, heldInUse := false } }) ∧
    (s.timing.ref = .locking → s.timing.refSeen = true → s.timing.sinceRef = 0 →
      nominalTicks s.timing.format s.timing.parity ≤ 2 * s.timing.sinceField →
      t.timing.field = s.timing.counter ∧ t.timing.counter = s.timing.counter + 1 ∧
        ((∀ e ∈ s.waiting.entries, e.due ≠ s.timing.counter) →
          t.timing.ref = .locked ∧ t.timing.wrong = 0 ∧ t.timing.aligning = false ∧
            t.timing.heldInUse = false ∧
            (s.timing.format = .interlaced1080 →
              t.timing.parity = s.timing.refParity ∧
                t.timing.nextParity = !s.timing.refParity)))) ∧
  ∀ (cause : HoldoverCause) (s : State), ∃ t, exec (.enterHoldover cause) s = .next t ∧
    (s.timing.ref ≠ .locked → t = s) ∧
    (s.timing.ref = .locked → s.timing.sinceField < (s.timing.period1 + s.timing.period2) / 2 →
      t = { s with timing := t.timing, reports := t.reports } ∧ t.timing.ref = .holdover ∧
        t.timing.held = (s.timing.period1 + s.timing.period2) / 2 ∧
        t.timing.counter = s.timing.counter ∧
        t.reports =
          s.reports.post .refLost 0 (match cause with | .silence => 0 | .incorrectFields => 1)
            s.timing.field) ∧
    (s.timing.ref = .locked → (s.timing.period1 + s.timing.period2) / 2 ≤ s.timing.sinceField →
      t.timing.field = s.timing.counter ∧ t.timing.counter = s.timing.counter + 1 ∧
        ((∀ e ∈ s.waiting.entries, e.due ≠ s.timing.counter) →
          t.timing.ref = .holdover ∧ t.timing.held = (s.timing.period1 + s.timing.period2) / 2 ∧
            t.timing.heldInUse = true ∧ t.timing.fieldPeriod = t.timing.held ∧
            t.reports =
              s.laneDownPosts
                (s.reports.post .refLost 0
                  (match cause with | .silence => 0 | .incorrectFields => 1) s.timing.field)))

/-- An output field start, by the expiry of the field period outside LOCKED and by the timeout of the
alignment search in it: the field takes the field counter, which advances from 65535 to 0 (R1), the staged
bypass request becomes the bypass state (R69), the exchange counts return to 0 (R67), the TEST register is
seeded (R163), and the last field's reports are gone. With no entry due, the field takes next parity,
which in the interlaced format changes and in the progressive formats becomes 0, the Pending List stays,
and the reference state with it (R1, R5); it is due to end after the held period where that is in use, else
after the nominal field period of its parity (R3, R6; ticks: log 5), and its presentation point is to come.
The field before it has then lasted its own period, or at the timeout one and a half nominal ones, those of its
own parity (log 7), unless the clock stood past that already. In LOCKED the first row, and outside the search
the second, has no effect (log 11, log 35). -/
def Obligations.FieldStartTakesNumberAndParity : Prop :=
  ∀ s : State,
    (∀ c, c = Instr.outputFieldStart ∧ s.timing.ref ≠ .locked ∨
        c = Instr.alignmentSearchTimeout ∧ s.timing.ref = .locked ∧ s.timing.aligning = true →
      ∃ t, exec c s = .next t ∧ t.timing.field = s.timing.counter ∧
        t.timing.counter = s.timing.counter + 1 ∧ t.timing.started = true ∧
        t.timing.sinceField = 0 ∧ t.timing.presented = false ∧ t.packets = [] ∧ t.generators.test = 1 ∧
        t.matrix.exchange1 = 0 ∧ t.matrix.exchange2 = 0 ∧
        (s.entriesAdmissible →
          t.matrix.staged = none ∧ t.matrix.bypass = s.matrix.staged.getD s.matrix.bypass) ∧
        ((∀ e ∈ s.waiting.entries, e.due ≠ s.timing.counter) →
          t.timing.parity = s.timing.nextParity ∧
          t.timing.nextParity = (s.timing.format.interlaced && !s.timing.nextParity) ∧
          t.timing.fieldPeriod =
            (if s.timing.heldInUse then s.timing.held
            else nominalTicks s.timing.format s.timing.nextParity) ∧
          t.timing.heldInUse = s.timing.heldInUse ∧ t.timing.held = s.timing.held ∧
          (∀ lasts, lasts =
              (if c = .outputFieldStart then s.timing.fieldPeriod
              else 3 * nominalTicks s.timing.format s.timing.parity / 2) →
            t.timing.sinceRef = s.timing.sinceRef + (lasts - s.timing.sinceField)) ∧
          t.timing.format = s.timing.format ∧ t.timing.ref = s.timing.ref ∧
          t.timing.aligning = s.timing.aligning ∧ t.waiting = s.waiting)) ∧
    (s.timing.ref = .locked → exec .outputFieldStart s = .next s) ∧
    (¬(s.timing.ref = .locked ∧ s.timing.aligning = true) →
      exec .alignmentSearchTimeout s = .next s)

/-- At a field start, whichever row raises it, every entry due at the field leaves the Pending List and the
others stay in their order; the hold flag is cleared where the removals bring the depth to 32 or less (R34,
R35). Once the field has begun, the entries are delivered one at a time in list order, each to the state
that the one before it leaves, and then the field is finished. Where an ENGINE RESET is among those due,
the entries before it and it are delivered, and every other entry leaves undelivered (R38). The rows
ENTER_LOCKED and ENTER_HOLDOVER: log 4; the order within a field start: log 13. -/
def Obligations.FieldStartReleasesTheDueEntries : Prop :=
  ∀ (i : Instr) (s : State) (due : List Entry), s.startsField i → s.listOrdered →
    s.entriesAdmissible → due = s.waiting.entries.filter (fun e => e.due == s.timing.counter) →
    ∃ b t, exec i s = .next t ∧ b.timing.field = s.timing.counter ∧ b.waiting = s.waiting ∧
      b.tables = s.tables ∧ b.engines = s.engines ∧ b.keyers = s.keyers ∧ b.ftb = s.ftb ∧
      b.mon = s.mon ∧ b.checker = s.checker ∧ b.matrix.buses = s.matrix.buses ∧
      b.generators.matte1 = s.generators.matte1 ∧ b.generators.matte2 = s.generators.matte2 ∧
      ((∀ e ∈ due, e.command ≠ .engineReset) →
        t = (due.foldl State.deliverEntry b).finishField ∧
        t.waiting.entries = s.waiting.entries.filter (fun e => e.due != s.timing.counter) ∧
        t.waiting.hold =
          (s.waiting.hold && (due.isEmpty || decide (32 < t.waiting.entries.length)))) ∧
      ∀ (before after : List Entry) (reset : Entry), due = before ++ reset :: after →
        reset.command = .engineReset → (∀ e ∈ before, e.command ≠ .engineReset) →
        t = ((before ++ [reset]).foldl State.deliverEntry b).finishField ∧
        t.waiting = ⟨[], false⟩

/-- A background completion of ME1 or ME2 at a field start is exchanged after every SELECT due at it (R62,
R67): with SELECTs of enabled sources due and the run taking its last step, A holds what the last SELECT of
B, or else B, held, and B that of A, and every bus of no bank's pair what the last SELECT of it named. The
same where a LEVER among them brings the run to effective position 1024. CUTs of an idle bank whose next
selection has BKGD each complete a run: an odd number of them exchanges the two, an even number leaves
them (R68). -/
def Obligations.SelectPrecedesTheExchange : Prop :=
  ∀ (i : Instr) (s : State) (m : Me) (a : Nat) (held : Nat → Nat), s.startsField i → a = bankA m →
    (∀ b, held b = lastSelected s.waiting.entries b (s.bus b)) →
    (∀ e ∈ s.waiting.entries, e.due = s.timing.counter) → s.matrix.exchanges m = 0 →
    (∀ r, (∀ e ∈ s.waiting.entries, s.selectsEnabled e) → s.lastStep m.engine r →
      r.elements.bkgd = true →
      ∃ t, exec i s = .next t ∧ t.bus a = held (a + 1) ∧ t.bus (a + 1) = held a ∧
        (∀ b, b ≤ 19 → b ≠ 0 → b ≠ 1 → b ≠ 8 → b ≠ 9 → t.bus b = held b) ∧
        (t.engine m.engine).state = .idle) ∧
    (∀ (r : RunRecord) (before after : List Entry) (lever : Entry) (position : Nat),
      s.waiting.entries = before ++ lever :: after → lever.command = .lever m position →
      (∀ e ∈ before ++ after, s.selectsEnabled e) → (s.engine m.engine).state = .lever →
      (s.engine m.engine).run = some r → r.elements.bkgd = true →
      (match (s.engine m.engine).lever.sense with | .up => position | .down => 1024 - position) =
        1024 →
      ∃ t, exec i s = .next t ∧ t.bus a = held (a + 1) ∧ t.bus (a + 1) = held a ∧
        (t.engine m.engine).state = .idle) ∧
    ∀ (set : EngineSet) (cuts : Nat),
      (∀ f : EngineId, f.isIn set = decide (f = m.engine)) →
      (∀ e ∈ s.waiting.entries, s.selectsEnabled e ∨ e.command = .cut set) →
      cuts = s.waiting.entries.countP (fun e => e.command == .cut set) →
      (s.engine m.engine).state = .idle → (s.engine m.engine).sel.bkgd = true →
      ∃ t, exec i s = .next t ∧ (t.engine m.engine).state = .idle ∧
        (cuts % 2 = 1 → t.bus a = held (a + 1) ∧ t.bus (a + 1) = held a) ∧
        (cuts % 2 = 0 → t.bus a = held a ∧ t.bus (a + 1) = held (a + 1))

/-- The AUTO step: at a field start with no entry due each engine in AUTO raises j by one, with
q = floor(j·1024/R); where j reaches R its run completes; an engine in another state takes no step (R80,
R81). A completion makes the effect of each participant: each key of the run toggles its on-air flag and no
other flag changes (R92), a run TO_BLACK leaves FTB BLACKED and one FROM_BLACK CLEAR (R93), and with BKGD
the A and B buses of the bank are exchanged, all other buses staying (R67, R91); the lever record is left as
R99 says. Each run record belongs to its engine, as every step keeps it. -/
def Obligations.FieldStartStepsTheEngines : Prop :=
  ∀ (i : Instr) (s : State), s.startsField i →
    (∀ e ∈ s.waiting.entries, e.due ≠ s.timing.counter) →
    ∃ t, exec i s = .next t ∧
      (∀ e : EngineId,
        ((s.engine e).state ≠ .auto → t.engine e = s.engine e) ∧
        ∀ r, (s.engine e).state = .auto → (s.engine e).run = some r →
          ((s.engine e).j + 1 ≠ r.settings.rate →
            t.engine e =
              { s.engine e with
                j := (s.engine e).j + 1
                q := ((s.engine e).j + 1) * 1024 / r.settings.rate }) ∧
          ((s.engine e).j + 1 = r.settings.rate →
            t.engine e =
              { s.engine e with
                state := .idle, j := 0, q := 0, run := none
                lever := (s.engine e).lever.leftBehind })) ∧
      (s.engines.wf →
        (∀ n e r, n ≤ 7 → s.lastStep e r → n ∈ r.elements.keys.map Prod.fst →
          t.keyer n = { s.keyer n with onAir := !(s.keyer n).onAir }) ∧
        (∀ n, n ≤ 7 → (∀ e r, s.lastStep e r → n ∉ r.elements.keys.map Prod.fst) →
          t.keyer n = s.keyer n) ∧
        (∀ r, s.lastStep .ftb r →
          (r.elements.fade = some .toBlack → t.ftb = .blacked) ∧
          (r.elements.fade = some .fromBlack → t.ftb = .clear)) ∧
        ((∀ r, ¬s.lastStep .ftb r) → t.ftb = s.ftb) ∧
        (s.matrix.exchange1 = 0 → s.matrix.exchange2 = 0 →
          (∀ (m : Me) (a : Nat), a = bankA m →
            ((∃ r, s.lastStep m.engine r ∧ r.elements.bkgd = true) →
              t.bus a = s.bus (a + 1) ∧ t.bus (a + 1) = s.bus a) ∧
            ((∀ r, s.lastStep m.engine r → r.elements.bkgd = false) →
              t.bus a = s.bus a ∧ t.bus (a + 1) = s.bus (a + 1))) ∧
          ∀ b, b ≠ 0 → b ≠ 1 → b ≠ 8 → b ≠ 9 → t.bus b = s.bus b))

/-- The missed-field watch: at a field start, whichever row raises it, with no entry due, a lane not in DOWN
that saw no lane field start in the field just ended raises missed fields, one that saw one returns it to 0;
at 2 the lane goes to DOWN with its counts and flags cleared and LANE_DOWN posted with detail 0, lane by lane
(R12, R177; log 14). The lane field matched with the field that begins, its picture lines and its match are
then those of the field in progress, on which the delivery decision is made, and its parity is that of the
field (R9, R11, R13; log 15, log 39); nothing else of a lane changes. A packet in reception is discarded where
lane C is then in DOWN or SEEK, and the Command Receiver is otherwise kept (R24). The rows ENTER_LOCKED and
ENTER_HOLDOVER: log 4. -/
def Obligations.FieldStartWatchesTheLanes : Prop :=
  ∀ (i : Instr) (s : State), s.startsField i →
    (∀ e ∈ s.waiting.entries, e.due ≠ s.timing.counter) →
    ∃ t, exec i s = .next t ∧ t.receiver = s.receptionAfter t 25 ∧
      (s.timing.ref ≠ .locked ∨ t.timing.ref ≠ .holdover →
        t.reports = s.laneDownPosts s.reports) ∧
      (s.timing.ref = .locked → t.timing.ref = .holdover →
        ∃ cause : Int, (cause = 0 ∨ cause = 1) ∧
          t.reports = s.laneDownPosts (s.reports.post .refLost 0 cause s.timing.field)) ∧
      ∀ (n : Nat) (l turned : Lane), isLane n = true → l = s.lane n →
        turned =
          { l with
            seen := false, matchedCurrent := l.matchedNext, matchedNext := none
            pictureCurrent := l.pictureNext, pictureNext := []
            target := if l.target = .next then .current else .past
            openParity := if l.target = .next then t.timing.parity else l.openParity
            decision := match l.matchedNext with | some m => m | none => ⟨(t.lane n).state, false⟩ } →
        (l.state = .down → t.lane n = turned) ∧
        (l.state ≠ .down → l.seen = true → t.lane n = { turned with missed := 0 }) ∧
        (l.state ≠ .down → l.seen = false → l.missed = 0 →
          t.lane n = { turned with missed := 1 }) ∧
        (l.state ≠ .down → l.seen = false → 1 ≤ l.missed →
          t.lane n =
            { turned with
              state := .down, missed := 0, matchCount := 0, slip := false, mismatch := false
              bad := 0 })

/-! ## The Lane Receivers -/

/-- The first lane field start of a lane in DOWN, or after a RESEEK or a format change, puts the lane in SEEK
with match count 0, mismatch flag no and bad-line count 0, records nothing and judges nothing (R12, R20). On
lane C the taken and dropped counts return to 0 (R23), and no packet is in reception (R24). The lane field is
matched as R9 says and is not the one delivered (R11; log 15, log 39). -/
def Obligations.OpeningLaneStartGoesToSeek : Prop :=
  ∀ (n elapsed : Nat) (s : State), isLane n = true →
    (s.lane n).state = .down ∨ ((s.lane n).state = .seek ∧ (s.lane n).unjudged = true) →
    ∃ t, exec (.laneFieldStart n elapsed) s = .next t ∧
      t = { s with lanes := t.lanes, receiver := t.receiver } ∧
      (t.lane n).state = .seek ∧ (t.lane n).matchCount = 0 ∧ (t.lane n).mismatch = false ∧
      (t.lane n).bad = 0 ∧ (t.lane n).lines = 0 ∧ (t.lane n).unjudged = false ∧
      (t.lane n).seen = true ∧ (t.lane n).delay = (s.lane n).delay ∧
      (t.lane n).settings = (s.lane n).settings ∧
      (t.lane n).limitInForce = (s.lane n).settings.limit ∧
      (t.lane n).swapInForce = (s.lane n).settings.swap ∧
      (s.lane n).begins (t.lane n) ∧
      (s.lane n).matchedBy (t.lane n) s.timing elapsed false ∧
      (∀ m, isLane m = true → m ≠ n → t.lane m = s.lane m) ∧
      (n ≠ 25 → t.receiver = s.receiver) ∧
      (n = 25 → t.receiver = ⟨0, 0, none⟩)

/-- The judgement of a lane field start in SEEK (R9, R13): `d` is the lateness measured at `elapsed` line
periods, `err` the length error of the lane field that the start ends. The lane field is matched with the
output field in progress or the next, and where the start brings TIMED it is the first that may be
delivered (R9, R11; log 15, log 39). In TIMED the match count is 0 (log 43).
The counts and the settings in force are those that every start sets (R12, R13, R16, R18), and what a case does
not name of lateness, candidate, slip, delay and mismatch flag stays.
On lane C the taken and dropped counts return to 0 (R23), and a packet in reception stays (log 47) unless the
lane is then in SEEK (R24). -/
def Obligations.SeekJudgesTheLaneField : Prop :=
  ∀ (n elapsed : Nat) (s : State) (d err : Int), isLane n = true → (s.lane n).state = .seek →
    (s.lane n).unjudged = false →
    d = (if 2 * elapsed < nominalLines s.timing.format s.timing.parity then (elapsed : Int)
      else (elapsed : Int) - (nominalLines s.timing.format s.timing.parity : Int)) →
    err = ((s.lane n).lines : Int) -
      (nominalLines s.timing.format (s.lane n).openParity : Int) →
    ∃ t, exec (.laneFieldStart n elapsed) s = .next t ∧
      t = { s with lanes := t.lanes, receiver := t.receiver, reports := t.reports } ∧
      (∀ m, isLane m = true → m ≠ n → t.lane m = s.lane m) ∧
      (n ≠ 25 → t.receiver = s.receiver) ∧
      (n = 25 → t.receiver = { s.receptionAfter t n with taken := 0, dropped := 0 }) ∧
      (t.lane n).settings = (s.lane n).settings ∧
      (t.lane n).bad = 0 ∧ (t.lane n).missed = (s.lane n).missed ∧
      (s.lane n).begins (t.lane n) ∧
      (s.lane n).matchedBy (t.lane n) s.timing elapsed (decide ((t.lane n).state = .timed)) ∧
      (t.lane n).slip = (s.lane n).slip ∧
      ((t.lane n).state ≠ .timed → (t.lane n).lateness = (s.lane n).lateness) ∧
      (err ≠ 0 →
        (t.lane n).state = .seek ∧ (t.lane n).candidate = (s.lane n).candidate ∧
        (t.lane n).matchCount = 0 ∧ (t.lane n).mismatch = true ∧
        (t.lane n).delay = (s.lane n).delay ∧
        t.reports =
          if (s.lane n).mismatch then s.reports
          else s.reports.post .laneFormat n err s.timing.field) ∧
      (err = 0 → (s.lane n).matchCount = 0 ∨ (s.lane n).candidate ≠ d →
        (t.lane n).state = .seek ∧ (t.lane n).matchCount = 1 ∧ (t.lane n).candidate = d ∧
        (t.lane n).mismatch = false ∧ (t.lane n).delay = (s.lane n).delay ∧
        t.reports = s.reports) ∧
      (err = 0 → (s.lane n).matchCount ≠ 0 → (s.lane n).candidate = d →
        d.natAbs ≤ (s.lane n).settings.window →
        (t.lane n).state = .timed ∧ (t.lane n).matchCount = 0 ∧
        (t.lane n).candidate = d ∧ (t.lane n).mismatch = (s.lane n).mismatch ∧ (t.lane n).lateness = d ∧
        (t.lane n).delay = (16 - d).toNat ∧ t.reports = s.reports) ∧
      (err = 0 → (s.lane n).matchCount ≠ 0 → (s.lane n).candidate = d →
        (s.lane n).settings.window < d.natAbs →
        (t.lane n).state = .untimed ∧ (t.lane n).matchCount = 0 ∧
        (t.lane n).candidate = d ∧ (t.lane n).mismatch = (s.lane n).mismatch ∧
        (t.lane n).delay = (s.lane n).delay ∧
        t.reports = s.reports.post .laneUntimed n d s.timing.field)

/-- The judgement of a lane field start in TIMED, row by row of R14's table: a pending slip is applied,
then the lane leaves for UNTIMED or SEEK, stays, or slips; `again` says that the start is matched with an
output field that already has a matched lane field of the lane. Only a start that leaves the lane TIMED
with no slip opens a lane field that may be delivered (R11; log 15, log 39). The
counts and the settings in force are those that every start sets (R12, R13, R16, R18); candidate and mismatch
flag stay, the flag also at the row that records LANE_FORMAT (log 46).
On lane C the taken and dropped counts return to 0 (R23), and a packet in reception stays (log 47) unless the
lane is then in SEEK (R24). -/
def Obligations.TimedLaneStaysSlipsOrLeaves : Prop :=
  ∀ (n elapsed : Nat) (s : State) (d err : Int) (again : Prop), isLane n = true →
    (s.lane n).state = .timed →
    d = (if 2 * elapsed < nominalLines s.timing.format s.timing.parity then (elapsed : Int)
      else (elapsed : Int) - (nominalLines s.timing.format s.timing.parity : Int)) →
    err = ((s.lane n).lines : Int) -
      (nominalLines s.timing.format (s.lane n).openParity : Int) →
    (again ↔ (if 2 * elapsed < nominalLines s.timing.format s.timing.parity
      then (s.lane n).matchedCurrent else (s.lane n).matchedNext) ≠ none) →
    ∃ t, exec (.laneFieldStart n elapsed) s = .next t ∧
      t = { s with lanes := t.lanes, receiver := t.receiver, reports := t.reports } ∧
      (∀ m, isLane m = true → m ≠ n → t.lane m = s.lane m) ∧
      (n ≠ 25 → t.receiver = s.receiver) ∧
      (n = 25 → t.receiver = { s.receptionAfter t n with taken := 0, dropped := 0 }) ∧
      (t.lane n).settings = (s.lane n).settings ∧
      (s.lane n).begins (t.lane n) ∧
      (s.lane n).matchedBy (t.lane n) s.timing elapsed
        (decide ((t.lane n).state = .timed) && !(t.lane n).slip) ∧
      (t.lane n).candidate = (s.lane n).candidate ∧ (t.lane n).mismatch = (s.lane n).mismatch ∧
      ((s.lane n).slip = true → (t.lane n).delay = (16 - (s.lane n).lateness).toNat) ∧
      ((s.lane n).slip = false → (t.lane n).delay = (s.lane n).delay) ∧
      ((s.lane n).settings.window < d.natAbs →
        (t.lane n).state = .untimed ∧ (t.lane n).matchCount = 0 ∧ (t.lane n).slip = false ∧
        (t.lane n).lateness = (s.lane n).lateness ∧
        t.reports = s.reports.post .laneUntimed n d s.timing.field) ∧
      (d.natAbs ≤ (s.lane n).settings.window → again →
        (t.lane n).state = .seek ∧ (t.lane n).matchCount = 0 ∧ (t.lane n).slip = false ∧
        (t.lane n).lateness = (s.lane n).lateness ∧
        t.reports = s.reports.post .laneFormat n err s.timing.field) ∧
      (d.natAbs ≤ (s.lane n).settings.window → ¬again → d = (s.lane n).lateness →
        (t.lane n).state = .timed ∧ (t.lane n).slip = false ∧ (t.lane n).lateness = d ∧
        (t.lane n).matchCount = (s.lane n).matchCount ∧
        t.reports = s.reports) ∧
      (d.natAbs ≤ (s.lane n).settings.window → ¬again → d ≠ (s.lane n).lateness →
        (t.lane n).state = .timed ∧ (t.lane n).slip = true ∧ (t.lane n).lateness = d ∧
        (t.lane n).matchCount = (s.lane n).matchCount ∧
        t.reports = s.reports.post .laneSlip n (d - (s.lane n).lateness) s.timing.field)

/-- The judgement of a lane field start in UNTIMED (R15): as in SEEK, but a lateness outside the window
returns the match count to 0 and records nothing, and the second of two matching lane fields inside it
brings TIMED, and is the first that may be delivered (R11; log 15, log 39). In TIMED the match count is 0
(log 43). The counts and the settings in force are those that every start sets (R12, R13, R16, R18); delay and
lateness in use stay until TIMED, and the mismatch flag returns to no at every lane field of correct length but
the second (log 36).
On lane C the taken and dropped counts return to 0 (R23), and a packet in reception stays (log 47) unless the
lane is then in SEEK (R24). -/
def Obligations.UntimedLaneReturnsInsideTheWindow : Prop :=
  ∀ (n elapsed : Nat) (s : State) (d err : Int), isLane n = true →
    (s.lane n).state = .untimed →
    d = (if 2 * elapsed < nominalLines s.timing.format s.timing.parity then (elapsed : Int)
      else (elapsed : Int) - (nominalLines s.timing.format s.timing.parity : Int)) →
    err = ((s.lane n).lines : Int) -
      (nominalLines s.timing.format (s.lane n).openParity : Int) →
    ∃ t, exec (.laneFieldStart n elapsed) s = .next t ∧
      t = { s with lanes := t.lanes, receiver := t.receiver, reports := t.reports } ∧
      (∀ m, isLane m = true → m ≠ n → t.lane m = s.lane m) ∧
      (n ≠ 25 → t.receiver = s.receiver) ∧
      (n = 25 → t.receiver = { s.receptionAfter t n with taken := 0, dropped := 0 }) ∧
      (t.lane n).settings = (s.lane n).settings ∧
      (s.lane n).begins (t.lane n) ∧
      (s.lane n).matchedBy (t.lane n) s.timing elapsed (decide ((t.lane n).state = .timed)) ∧
      (t.lane n).slip = (s.lane n).slip ∧
      ((t.lane n).state ≠ .timed → (t.lane n).lateness = (s.lane n).lateness ∧
        (t.lane n).delay = (s.lane n).delay) ∧
      (err ≠ 0 →
        (t.lane n).state = .untimed ∧ (t.lane n).candidate = (s.lane n).candidate ∧
        (t.lane n).matchCount = 0 ∧ (t.lane n).mismatch = true ∧
        t.reports =
          if (s.lane n).mismatch then s.reports
          else s.reports.post .laneFormat n err s.timing.field) ∧
      (err = 0 → (s.lane n).settings.window < d.natAbs →
        (t.lane n).state = .untimed ∧ (t.lane n).matchCount = 0 ∧ (t.lane n).mismatch = false ∧
        (t.lane n).candidate = (s.lane n).candidate ∧ t.reports = s.reports) ∧
      (err = 0 → d.natAbs ≤ (s.lane n).settings.window →
        (s.lane n).matchCount = 0 ∨ (s.lane n).candidate ≠ d →
        (t.lane n).state = .untimed ∧ (t.lane n).matchCount = 1 ∧ (t.lane n).candidate = d ∧
        (t.lane n).mismatch = false ∧ t.reports = s.reports) ∧
      (err = 0 → d.natAbs ≤ (s.lane n).settings.window → (s.lane n).matchCount ≠ 0 →
        (s.lane n).candidate = d →
        (t.lane n).state = .timed ∧ (t.lane n).matchCount = 0 ∧
        (t.lane n).candidate = d ∧ (t.lane n).mismatch = (s.lane n).mismatch ∧ (t.lane n).lateness = d ∧
        (t.lane n).delay = (16 - d).toNat ∧ t.reports = s.reports)

/-- A received line in SEEK, TIMED or UNTIMED: a bad one, by its length or its check word, raises the bad-line
count below the limit in force; at the limit the lane goes to SEEK with match count 0 and no slip pending and
records LANE_ERRORS with the count; a good line, and a bad one at the limit already, change neither (R16,
R185). An active line of a source lane, good or bad, is kept for the output field that its lane field is
matched with, Cb and Cr of every pixel pair exchanged where chroma swap was on when the lane field began (R10,
R16, R18; log 17); an incomplete pair at the end of a short line stays (log 37). Lane C's alignment buffer is
not used (R17, R18). In DOWN the line has no effect (log 20). The counts of the Command Receiver are kept, and
a packet in reception is discarded where lane C is then in SEEK (R24). -/
def Obligations.BadLinesSendTheLaneToSeek : Prop :=
  (∀ (received : Line) (k : Nat), (swapChroma received).length = received.length ∧
    (4 * k + 3 < received.length →
      (swapChroma received)[4 * k]? = received[4 * k + 2]? ∧
      (swapChroma received)[4 * k + 1]? = received[4 * k + 1]? ∧
      (swapChroma received)[4 * k + 2]? = received[4 * k]? ∧
      (swapChroma received)[4 * k + 3]? = received[4 * k + 3]?) ∧
    (received.length ≤ 4 * (k / 4) + 3 → (swapChroma received)[k]? = received[k]?)) ∧
  ∀ (n : Nat) (samples : Line) (check : LinkWord) (s : State), isLane n = true →
    ((s.lane n).state = .down → exec (.laneLine n samples check) s = .next s) ∧
    ((s.lane n).state ≠ .down →
      ∃ t, exec (.laneLine n samples check) s = .next t ∧
        t = { s with lanes := t.lanes, receiver := t.receiver, reports := t.reports } ∧
        (∀ m, isLane m = true → m ≠ n → t.lane m = s.lane m) ∧
        t.receiver = s.receptionAfter t n ∧ (t.lane n).lines = (s.lane n).lines + 1 ∧
        (t.lane n).settings = (s.lane n).settings ∧
        (t.lane n).limitInForce = (s.lane n).limitInForce ∧
        (t.lane n).decision = (s.lane n).decision ∧
        (n ≠ 25 → (s.lane n).keptLine (t.lane n) s.timing.format samples) ∧
        (n = 25 → (t.lane n).pictureCurrent = (s.lane n).pictureCurrent ∧
          (t.lane n).pictureNext = (s.lane n).pictureNext) ∧
        ((samples.length = 2 * width s.timing.format ∧ check = checkWord samples) ∨
            (s.lane n).limitInForce ≤ (s.lane n).bad →
          (t.lane n).bad = (s.lane n).bad ∧ (t.lane n).state = (s.lane n).state ∧
            t.reports = s.reports) ∧
        (samples.length ≠ 2 * width s.timing.format ∨ check ≠ checkWord samples →
          (s.lane n).bad + 1 < (s.lane n).limitInForce →
          (t.lane n).bad = (s.lane n).bad + 1 ∧ (t.lane n).state = (s.lane n).state ∧
            t.reports = s.reports) ∧
        (samples.length ≠ 2 * width s.timing.format ∨ check ≠ checkWord samples →
          (s.lane n).bad + 1 = (s.lane n).limitInForce →
          (t.lane n).bad = (s.lane n).limitInForce ∧ (t.lane n).state = .seek ∧
            (t.lane n).matchCount = 0 ∧ (t.lane n).slip = false ∧
            t.reports =
              s.reports.post .laneErrors n ((s.lane n).limitInForce : Int) s.timing.field))

/-- The rows LANE_ERRORS and LANE_DOWN (log 4): in a lane not in DOWN the bad-line count reaches its
limit, or missed fields reaches 2, with R16's and R12's consequence; in DOWN neither has an effect. On
lane C a packet in reception is discarded and the counts of the Command Receiver are kept (R24). -/
def Obligations.LaneErrorsAndLaneDown : Prop :=
  ∀ (n : Nat) (s : State), isLane n = true →
    ((s.lane n).state = .down →
      exec (.laneErrors n) s = .next s ∧ exec (.laneDown n) s = .next s) ∧
    ((s.lane n).state ≠ .down →
      (∃ t, exec (.laneErrors n) s = .next t ∧
        t = { s with lanes := t.lanes, receiver := t.receiver, reports := t.reports } ∧
        (∀ m, isLane m = true → m ≠ n → t.lane m = s.lane m) ∧
        t.receiver =
          (if n = 25 then { s.receiver with inReception := none } else s.receiver) ∧
        t.lane n =
          { s.lane n with
            state := .seek, matchCount := 0, slip := false, bad := (s.lane n).limitInForce } ∧
        t.reports =
          s.reports.post .laneErrors n ((s.lane n).limitInForce : Int) s.timing.field) ∧
      ∃ t, exec (.laneDown n) s = .next t ∧
        t = { s with lanes := t.lanes, receiver := t.receiver, reports := t.reports } ∧
        (∀ m, isLane m = true → m ≠ n → t.lane m = s.lane m) ∧
        t.receiver =
          (if n = 25 then { s.receiver with inReception := none } else s.receiver) ∧
        t.lane n =
          { s.lane n with
            state := .down, missed := 0, matchCount := 0, slip := false, mismatch := false
            bad := 0 } ∧
        t.reports = s.reports.post .laneDown n 0 s.timing.field)

/-- At the presentation point each lane's delivery decision is made: on the lane field matched with the
output field in progress where there is one, else the substitute on the lane's state (R11). It is made
once in a field, and not before field 0 (log 8, log 35). -/
def Obligations.PresentationPointMakesTheDecisions : Prop :=
  ∀ s : State, ∃ t, exec .presentationPoint s = .next t ∧
    (s.timing.started = false ∨ s.timing.presented = true → t = s) ∧
    (s.timing.started = true → s.timing.presented = false →
      t = { s with timing := t.timing, lanes := t.lanes } ∧ t.timing.presented = true ∧
      t.timing.counter = s.timing.counter ∧ t.timing.ref = s.timing.ref ∧
      ∀ n, isLane n = true →
        t.lane n =
          { s.lane n with
            decision :=
              match (s.lane n).matchedCurrent with
              | some m => m
              | none => ⟨(s.lane n).state, false⟩ })

/-- SET LANE replaces the four settings of the named lane and nothing else (R18); a window above 16 is
stored as 16 with CLAMPED (R28). RESEEK sends each named lane to SEEK with its counts and flags cleared,
its delay and settings kept, the lane field in progress not judged and no lane field left matched, so that
its substitute is delivered from the field of the delivery on, and where lane C is named a packet in
reception is discarded (R20, R24). Taken after the presentation point, the row leaves what the field in
progress delivers (log 3, log 16). -/
def Obligations.SetLaneAndReseek : Prop :=
  (∀ (tag : Tag) (n : Nat) (l : LaneSettings) (s : State), isLane n = true → s.receiverWf →
    1 ≤ l.limit → l.limit ≤ 15 →
    ∃ t, exec (.setLane tag n l) s = .next t ∧
      t = { s with lanes := t.lanes, reports := t.reports } ∧
      t.reports =
        (if 16 < l.window then s.reports.notice ⟨tag, 13, .clamped, n⟩ s.timing.field
        else s.reports) ∧
      t.lane n = { s.lane n with settings := { l with window := min l.window 16 } } ∧
      ∀ m, isLane m = true → m ≠ n → t.lane m = s.lane m) ∧
  ∀ (tag : Tag) (lanes : LaneSet) (s : State), (∃ n, lanes.getLsbD n = true) →
    (∀ n, lanes.getLsbD n = true → 1 ≤ n ∧ n ≤ 25) →
    ∃ t, exec (.reseek tag lanes) s = .next t ∧
      t = { s with lanes := t.lanes, receiver := t.receiver } ∧
      (∀ n, isLane n = true →
        (lanes.getLsbD n = false → t.lane n = s.lane n) ∧
        (lanes.getLsbD n = true →
          (t.lane n).state = .seek ∧ (t.lane n).matchCount = 0 ∧ (t.lane n).slip = false ∧
          (t.lane n).mismatch = false ∧ (t.lane n).bad = 0 ∧ (t.lane n).missed = 0 ∧
          (t.lane n).unjudged = true ∧ (t.lane n).matchedNext = none ∧
          (s.timing.presented = false → (t.lane n).matchedCurrent = none) ∧
          (s.timing.presented = true →
            (t.lane n).matchedCurrent = (s.lane n).matchedCurrent) ∧
          (t.lane n).decision = (s.lane n).decision ∧
          (t.lane n).delay = (s.lane n).delay ∧ (t.lane n).settings = (s.lane n).settings)) ∧
      t.receiver =
        if lanes.getLsbD 25 then { s.receiver with inReception := none } else s.receiver

/-- SET FORMAT: refused with BUSY while an engine is not IDLE; else the format becomes the one named, the
field in progress carries parity 0, the field counter is kept, the reference state becomes LOCKING or, where
the reference is silent, ABSENT with good-field count 0, fields run at the nominal period, every lane goes to
SEEK with its counts and flags cleared and its settings kept and delivers its substitute, and a packet in
reception is discarded (R8, R24). The row is taken at once, with the field in progress in the place of field N
(log 3); that no lane field stays matched is log 16, and that STATUS reports SEEK for the field is log 44. -/
def Obligations.SetFormatTakesEffectWhenAllIdle : Prop :=
  ∀ (tag : Tag) (f : Format) (s : State), ∃ t, exec (.setFormat tag f) s = .next t ∧
    ((∃ e : EngineId, (s.engine e).state ≠ .idle) →
      t = { s with reports := s.reports.notice ⟨tag, 15, .busy, 0⟩ s.timing.field }) ∧
    ((∀ e : EngineId, (s.engine e).state = .idle) →
      t = { s with timing := t.timing, lanes := t.lanes, receiver := t.receiver } ∧
      t.timing.format = f ∧ t.timing.parity = false ∧
      t.timing.nextParity = decide (f = .interlaced1080) ∧
      t.timing.counter = s.timing.counter ∧ t.timing.field = s.timing.field ∧
      t.timing.ref = (if s.timing.silent then .absent else .locking) ∧ t.timing.good = 0 ∧
      t.timing.heldInUse = false ∧ t.timing.aligning = false ∧
      t.timing.fieldPeriod = nominalTicks f false ∧
      t.receiver = { s.receiver with inReception := none } ∧
      ∀ n, isLane n = true →
        (t.lane n).state = .seek ∧ (t.lane n).matchCount = 0 ∧ (t.lane n).slip = false ∧
        (t.lane n).mismatch = false ∧ (t.lane n).bad = 0 ∧ (t.lane n).missed = 0 ∧
        (t.lane n).unjudged = true ∧
        (t.lane n).matchedCurrent = none ∧ (t.lane n).matchedNext = none ∧
        (t.lane n).decision = ⟨.seek, false⟩ ∧ (t.lane n).settings = (s.lane n).settings ∧
        (t.lane n).delay = (s.lane n).delay)

/-! ## The command lane and the Pending List -/

/-- A packet framed as R182 lays it out, of 6 to 248 bytes, is accepted while lane C takes packets and
fewer than 16 have been taken: the taken count rises, no packet is in reception, and its payload is a
command arrival (R22, R23). -/
def Obligations.FramedPacketIsACommandArrival : Prop :=
  ∀ (payload : List Byte) (s : State), s.takesPackets = true → s.receiver.taken < 16 →
    6 ≤ payload.length → payload.length ≤ 248 →
    exec (.controlPacket (framePacket .control payload)) s =
      .next
        ({ s with
          receiver :=
            { s.receiver with taken := s.receiver.taken + 1, inReception := none } }.arrive payload)

/-- What is not accepted (R17, R22, R23, R182): a length word of fewer than 6 or more than 248 bytes, a
check word that disagrees, and the end of the blanking drop the packet with CONTROL_CHECK 1, 0 and 2; a
good packet after 16 taken ones is dropped with CONTROL_OVERRUN; words short of the check word stand as the
packet in reception (log 26); while lane C is DOWN or SEEK, and where the words do not begin with the flag
and the control identity, nothing happens. A packet in reception that starts with words received after the
identity is those words behind the flag and the identity (log 27). -/
def Obligations.PacketsThatAreNotAccepted : Prop :=
  (∀ (words : List LinkWord) (s : State),
    s.takesPackets = false ∨ words.take 4 ≠ [0x3FE#10, 0x001#10, 0x25A#10, 0x1C3#10] →
    exec (.controlPacket words) s = .next s) ∧
  (∀ (length : LinkWord) (rest : List LinkWord) (s : State) (n : Nat), s.takesPackets = true →
    n = length.toNat % 256 →
    (n < 6 ∨ 248 < n →
      exec (.controlPacket ([0x3FE#10, 0x001#10, 0x25A#10, 0x1C3#10, length] ++ rest)) s =
        .next
          { s with
            receiver := { s.receiver with inReception := none }
            reports := s.reports.post .controlCheck 25 1 s.timing.field }) ∧
    (6 ≤ n → n ≤ 248 → rest.length ≤ n →
      exec (.controlPacket ([0x3FE#10, 0x001#10, 0x25A#10, 0x1C3#10, length] ++ rest)) s =
        .next { s with receiver := { s.receiver with inReception := some (length :: rest) } }) ∧
    ∀ (bytes : List LinkWord) (check : LinkWord), 6 ≤ n → n ≤ 248 → bytes.length = n →
      rest = bytes ++ [check] →
      (check ≠ checkWord ([0x25A#10, 0x1C3#10, length] ++ bytes) →
        exec (.controlPacket ([0x3FE#10, 0x001#10, 0x25A#10, 0x1C3#10, length] ++ rest)) s =
          .next
            { s with
              receiver := { s.receiver with inReception := none }
              reports := s.reports.post .controlCheck 25 0 s.timing.field }) ∧
      (check = checkWord ([0x25A#10, 0x1C3#10, length] ++ bytes) → 16 ≤ s.receiver.taken →
        exec (.controlPacket ([0x3FE#10, 0x001#10, 0x25A#10, 0x1C3#10, length] ++ rest)) s =
          .next
            { s with
              receiver :=
                { s.receiver with
                  inReception := none, dropped := min 255 (s.receiver.dropped + 1) }
              reports :=
                s.reports.post .controlOverrun 25 (min 255 (s.receiver.dropped + 1) : Nat)
                  s.timing.field })) ∧
  (∀ s : State, s.receiver.inReception = none → exec .controlBlankingEnd s = .next s) ∧
  (∀ s : State, s.receiver.inReception ≠ none →
    exec .controlBlankingEnd s =
      .next
        { s with
          receiver := { s.receiver with inReception := none }
          reports := s.reports.post .controlCheck 25 2 s.timing.field }) ∧
  (∀ (words : List LinkWord) (s : State), s.takesPackets = false →
    exec (.packetInReceptionStart words) s = .next s) ∧
  (∀ (words : List LinkWord) (s : State),
    exec (.packetInReceptionStart words) s =
      exec (.controlPacket ([0x3FE#10, 0x001#10, 0x25A#10, 0x1C3#10] ++ words)) s) ∧
  ∀ s : State, s.takesPackets = true →
    exec (.packetInReceptionStart []) s =
      .next { s with receiver := { s.receiver with inReception := some [] } }

/-- The four tests of R26, in their order, on a payload: the kind, the length the kind calls for, the
timing flag with the value sets of R27 and R183 on the bytes of 11.4, and LOOP; a payload that meets all
four passes. The first that fails refuses the arrival with one notice of the tag and the kind as received,
and the command has no other effect. -/
def Obligations.ArrivalTestsRefuseInOrder : Prop :=
  (∀ p : List Byte, byteAt p 0 = 0 ∨ 28 ≤ byteAt p 0 → validate p = .refused .badCommand 0) ∧
  (∀ p : List Byte, 1 ≤ byteAt p 0 → byteAt p 0 ≤ 27 → payloadLength p ≠ some p.length →
    validate p = .refused .badLength 0) ∧
  (∀ p : List Byte, 1 ≤ byteAt p 0 → byteAt p 0 ≤ 27 → payloadLength p = some p.length →
    2 ≤ byteAt p 3 ∨ ¬payloadInSets p → validate p = .refused .badRange 0) ∧
  (∀ (p : List Byte) (loop : Prop), 1 ≤ byteAt p 0 → byteAt p 0 ≤ 27 →
    payloadLength p = some p.length → byteAt p 3 ≤ 1 → payloadInSets p →
    (loop ↔ byteAt p 0 = 1 ∧
      (byteAt p 6 ≤ 7 ∧ 29 ≤ byteAt p 7 ∨ 8 ≤ byteAt p 6 ∧ byteAt p 7 = 30)) →
    (loop → validate p = .refused .loop (byteAt p 6)) ∧
    (¬loop → ∃ c, decodeCommand p = some c ∧ inValueSets c ∧
      validate p =
        .passed c (if byteAt p 3 = 0 then none else some (BitVec.ofNat 16 (fieldAt p 4))))) ∧
  ∀ (p : List Byte) (reason : Reason) (subject : Nat) (s : State),
    validate p = .refused reason subject →
    s.arrive p =
      { s with
        reports :=
          s.reports.notice ⟨BitVec.ofNat 16 (fieldAt p 1), byteAt p 0, reason, subject⟩
            s.timing.field }

/-- The due-field classification of an arrival (R31): IMMEDIATE is due at N; AT X with δ up to 32767 is due
at X; late by 1 or 2 it is due at N with LATE; later it is refused with STALE, also on a full list. A list
of 64 entries refuses every other arrival with QUEUE_FULL and nothing more. Otherwise the command, with the
clamped values of R28 in place, is inserted in order of due field and then of arrival (R33), may set the
hold flag (R34), and posts CLAMPED where a value was clamped, QUEUE_HOLD where the flag is set and LATE
where it is late; CLAMPED comes before LATE (R28), and QUEUE_HOLD between them (log 40). -/
def Obligations.ArrivalsAreClassifiedByDueField : Prop :=
  ∀ (p : List Byte) (c : Command) (due : Option FieldNo) (s : State),
    validate p = .passed c due → c.atArrival = false →
    (∀ y, due = some y → 32768 ≤ (y - s.timing.counter).toNat →
      (y - s.timing.counter).toNat ≤ 65533 →
      s.arrive p =
        { s with
          reports := s.reports.notice ⟨tagOf p, c.code, .stale, c.subject⟩ s.timing.field }) ∧
    ∀ (x : FieldNo) (late : Bool),
      (due = none ∧ x = s.timing.counter ∧ late = false ∨
        (∃ y, due = some y ∧ (y - s.timing.counter).toNat ≤ 32767 ∧ x = y ∧ late = false) ∨
        (∃ y, due = some y ∧ 65534 ≤ (y - s.timing.counter).toNat ∧ x = s.timing.counter ∧
          late = true)) →
      (64 ≤ s.waiting.entries.length →
        s.arrive p =
          { s with
            reports :=
              s.reports.notice ⟨tagOf p, c.code, .queueFull, c.subject⟩ s.timing.field }) ∧
      (s.waiting.entries.length < 64 →
        ∃ t, s.arrive p = t ∧ t = { s with waiting := t.waiting, reports := t.reports } ∧
          insertedInPlace s.timing.counter ⟨c.clamp, tagOf p, x⟩ s.waiting.entries
            t.waiting.entries ∧
          t.waiting.hold = (s.waiting.hold || decide (48 ≤ s.waiting.entries.length + 1)) ∧
          ∀ r1 r2 : Reports,
            r1 = (if c.clamp = c then s.reports
              else s.reports.notice ⟨tagOf p, c.code, .clamped, c.subject⟩ s.timing.field) →
            r2 = (if s.waiting.hold = false ∧ 48 ≤ s.waiting.entries.length + 1 then
                r1.post .queueHold 0 (s.waiting.entries.length + 1 : Nat) s.timing.field
              else r1) →
            t.reports =
              if late then r2.notice ⟨tagOf p, c.code, .late, c.subject⟩ s.timing.field else r2)

/-- What the panel sends is what the part reads: the payload that the layouts of 11.4 give an admissible
command, with any tag and any timing, passes the tests of R26 as that command with that tag and due
field. -/
def Obligations.EncodedCommandIsReadBack : Prop :=
  ∀ (tag : Tag) (due : Option FieldNo) (c : Command), c.admissible = true →
    validate (encodePayload tag due c) = .passed c due ∧ tagOf (encodePayload tag due c) = tag ∧
      byteAt (encodePayload tag due c) 0 = c.code ∧
      6 ≤ (encodePayload tag due c).length ∧ (encodePayload tag due c).length ≤ 75

/-- From the words on lane C to the Pending List: an admissible queued command, framed and sent AT a
field 0 to 32767 ahead while lane C takes packets and the list has room, stands in the list with its
tag and that due field, after every entry due then or earlier and before every later one (R22, R26, R31,
R33). -/
def Obligations.QueuedCommandReachesTheList : Prop :=
  ∀ (tag : Tag) (x : FieldNo) (c : Command) (s : State), c.admissible = true →
    c.atArrival = false → s.takesPackets = true → s.receiver.taken < 16 →
    s.waiting.entries.length < 64 → (x - s.timing.counter).toNat ≤ 32767 →
    ∃ t, exec (.controlPacket (framePacket .control (encodePayload tag (some x) c))) s = .next t ∧
      t = { s with receiver := t.receiver, waiting := t.waiting, reports := t.reports } ∧
      t.receiver = { s.receiver with taken := s.receiver.taken + 1, inReception := none } ∧
      insertedInPlace s.timing.counter ⟨c, tag, x⟩ s.waiting.entries t.waiting.entries

/-- PURGE ALL removes every waiting entry, PURGE TAG those with the tag, in whose place the order of the
others stays; neither posts anything, and the hold flag is cleared at a depth of 32 or less (R30, R34).
BYPASS replaces the staged request (R29). -/
def Obligations.PurgeAndBypassActAtOnce : Prop :=
  (∀ (tag : Tag) (s : State), exec (.purgeAll tag) s = .next { s with waiting := ⟨[], false⟩ }) ∧
  (∀ (tag named : Tag) (s : State), ∃ t, exec (.purgeTag tag named) s = .next t ∧
    t = { s with waiting := t.waiting } ∧
    t.waiting.entries = s.waiting.entries.filter (fun e => e.tag != named) ∧
    t.waiting.hold = (s.waiting.hold && decide (32 < t.waiting.entries.length))) ∧
  ∀ (tag : Tag) (source : Option Nat) (s : State), (∀ n, source = some n → n ≤ 28) →
    exec (.bypass tag source) s =
      .next { s with matrix := { s.matrix with staged := some source } }

/-- A panel command taken at once (log 3): a parameter outside the set that R27 gives refuses it with
BAD_RANGE, a SELECT that would break the re-entry restriction with LOOP and the bus (R26), and out-of-range
values of the clamped parameters are brought into range with one CLAMPED before the command acts, those of
LEVER and LOAD CURVE at most 1024 (R28). -/
def Obligations.CommandRowsAreValidatedAndClamped : Prop :=
  ∀ (i : Instr) (tag : Tag) (c : Command) (s : State), i.command? = some (tag, c) →
    (¬inValueSets c →
      exec i s =
        .next
          { s with reports := s.reports.notice ⟨tag, c.code, .badRange, 0⟩ s.timing.field }) ∧
    (∀ bus source, c = .select bus source → bus ≤ 19 → source ≤ 30 →
      bus ≤ 7 ∧ 29 ≤ source ∨ 8 ≤ bus ∧ source = 30 →
      exec i s =
        .next { s with reports := s.reports.notice ⟨tag, 1, .loop, bus⟩ s.timing.field }) ∧
    (inValueSets c →
      (∀ bus source, c = .select bus source →
        ¬(bus ≤ 7 ∧ 29 ≤ source) ∧ ¬(8 ≤ bus ∧ source = 30)) → c.clamp = c →
      exec i s = .next (s.deliver tag c)) ∧
    (∀ me position, (Command.lever me position).clamp = .lever me (min position 1024)) ∧
    (∀ n first points, (Command.loadCurve n first points).clamp =
      .loadCurve n first (points.map (min · 1024))) ∧
    (inValueSets c → c.clamp ≠ c →
      exec i s =
        .next
          ({ s with
            reports :=
              s.reports.notice ⟨tag, c.code, .clamped, c.subject⟩ s.timing.field }.deliver
            tag c.clamp))

/-! ## Tables and crosspoints -/

/-- A load writes into SHADOW alone and sets the dirty flag of its kind (R43, R45, R48): a LOAD SHAPE and
a LOAD SOURCE the whole record of their number, a LOAD CURVE the points from its first point on. COMMIT
copies SHADOW into ACTIVE and clears the dirty flag for each kind named, and keeps the others and every
SHADOW copy (R51). -/
def Obligations.LoadsAndCommit : Prop :=
  ((∀ (tag : Tag) (n : Nat) (r : ShapeRecord) (s : State), n ≤ 15 → r.cu ≤ 4095 → r.cv ≤ 4095 →
    1 ≤ r.aspect → r.aspect ≤ 64 →
    ∃ t, exec (.loadShape tag n r) s = .next t ∧ t = { s with tables := t.tables } ∧
      t.tables =
        { s.tables with shadowShapes := t.tables.shadowShapes, dirtyShapes := true } ∧
      ∀ m d, look t.tables.shadowShapes m d =
        if m = n then r else look s.tables.shadowShapes m d) ∧
  (∀ (tag : Tag) (n : Nat) (r : SourceRecord) (s : State), n ≤ 30 →
    ∃ t, exec (.loadSource tag n r) s = .next t ∧ t = { s with tables := t.tables } ∧
      t.tables =
        { s.tables with shadowSources := t.tables.shadowSources, dirtySources := true } ∧
      ∀ m d, look t.tables.shadowSources m d =
        if m = n then r else look s.tables.shadowSources m d) ∧
  ∀ (tag : Tag) (n first : Nat) (points : List Nat) (s : State), n ≤ 7 → points ≠ [] →
    first + points.length ≤ 33 → (∀ p ∈ points, p ≤ 1024) →
    ∃ t, exec (.loadCurve tag n first points) s = .next t ∧ t = { s with tables := t.tables } ∧
      t.tables =
        { s.tables with shadowCurves := t.tables.shadowCurves, dirtyCurves := true } ∧
      (∀ m d, m ≠ n →
        look t.tables.shadowCurves m d = look s.tables.shadowCurves m d) ∧
      ∀ i d, i ≤ 32 → look (look t.tables.shadowCurves n d) i 0 =
        if first ≤ i ∧ i < first + points.length then points.getD (i - first) 0
        else look (look s.tables.shadowCurves n d) i 0) ∧
  ∀ (tag : Tag) (kinds : TableSet) (s : State),
    kinds.shapes = true ∨ kinds.curves = true ∨ kinds.sources = true →
    ∃ t, exec (.commit tag kinds) s = .next t ∧ t = { s with tables := t.tables } ∧
      t.tables.shadowShapes = s.tables.shadowShapes ∧
      t.tables.shadowCurves = s.tables.shadowCurves ∧
      t.tables.shadowSources = s.tables.shadowSources ∧
      (kinds.shapes = true →
        t.tables.shapes = s.tables.shadowShapes ∧ t.tables.dirtyShapes = false) ∧
      (kinds.shapes = false →
        t.tables.shapes = s.tables.shapes ∧ t.tables.dirtyShapes = s.tables.dirtyShapes) ∧
      (kinds.curves = true →
        t.tables.curves = s.tables.shadowCurves ∧ t.tables.dirtyCurves = false) ∧
      (kinds.curves = false →
        t.tables.curves = s.tables.curves ∧ t.tables.dirtyCurves = s.tables.dirtyCurves) ∧
      (kinds.sources = true →
        t.tables.sources = s.tables.shadowSources ∧ t.tables.dirtySources = false) ∧
      (kinds.sources = false →
        t.tables.sources = s.tables.sources ∧ t.tables.dirtySources = s.tables.dirtySources)

/-- SELECT within the re-entry restriction: an enabled source is taken by the bus, and every other bus
keeps its own; a disabled one is refused with SOURCE_DISABLED and the bus keeps what it held (R49, R61). -/
def Obligations.SelectSetsTheBus : Prop :=
  ∀ (tag : Tag) (b n : Nat) (s : State), b ≤ 19 → (b ≤ 7 → n ≤ 28) → n ≤ 29 →
    ((s.source n).enabled = true →
      ∃ t, exec (.select tag b n) s = .next t ∧ t = { s with matrix := t.matrix } ∧
        t.matrix = { s.matrix with buses := t.matrix.buses } ∧
        ∀ c, t.bus c = if c = b then n else s.bus c) ∧
    ((s.source n).enabled = false →
      exec (.select tag b n) s =
        .next
          { s with
            reports := s.reports.notice ⟨tag, 1, .sourceDisabled, b⟩ s.timing.field })

/-! ## Transition engines -/

/-- SET NEXT replaces the next selection of the bank; SET TRANSITION replaces the seven next settings of
an M/E engine, and of DSK1, DSK2 and FTB the rate, a WIPE being refused with BAD_STYLE; a rate above 999 is
stored as 999 with CLAMPED (R28, R76, R77). The run record is kept. -/
def Obligations.NextSettingsAndSelectionAreStaged : Prop :=
  (∀ (tag : Tag) (me : Me) (sel : NextSel) (s : State),
    ∃ t, exec (.setNext tag me sel) s = .next t ∧ t = { s with engines := t.engines } ∧
      t.engine me.engine = { s.engine me.engine with sel := sel } ∧
      ∀ f, f ≠ me.engine → t.engine f = s.engine f) ∧
  ∀ (tag : Tag) (e : EngineId) (x : NextSettings) (s : State), x.shape ≤ 15 → x.border ≤ 255 →
    x.softness ≤ 255 →
    ∃ t, exec (.setTransition tag e x) s = .next t ∧
      t = { s with engines := t.engines, reports := t.reports } ∧
      (∀ f, f ≠ e → t.engine f = s.engine f) ∧
      ∀ r : Reports,
        r = (if 999 < x.rate then s.reports.notice ⟨tag, 3, .clamped, e.code⟩ s.timing.field
          else s.reports) →
        (e.isMe = true →
          t.engine e = { s.engine e with next := { x with rate := min x.rate 999 } } ∧
            t.reports = r) ∧
        (e.isMe = false → x.style = .mix →
          t.engine e =
            { s.engine e with next := { (s.engine e).next with rate := min x.rate 999 } } ∧
            t.reports = r) ∧
        (e.isMe = false → x.style = .wipe →
          t.engine e = s.engine e ∧ t.reports = r.notice ⟨tag, 3, .badStyle, e.code⟩ s.timing.field)

/-- The elements that a latch takes (R78, R79, R82): of an M/E the next selection, each key ON where its
on-air flag is off and OFF where it is on; of DSK1 and DSK2 the key itself; of FTB the fade, TO_BLACK from
CLEAR and FROM_BLACK from BLACKED. TAKE, decided for each engine of the set on its own (R37, R83): one in
IDLE with something to drive and a rate of 1 or more latches its run record and enters AUTO with j = 0; one
in IDLE with an empty next selection is refused with EMPTY_NEXT, and one in AUTO, PAUSED or LEVER with BUSY,
in order of engine number. -/
def Obligations.TakeStartsEachIdleEngine : Prop :=
  (∀ (s : State) (e : EngineId) (n : Nat) (d : Direction),
    ((s.nextElements e).bkgd = true ↔ e.isMe = true ∧ (s.engine e).sel.bkgd = true) ∧
    ((n, d) ∈ (s.nextElements e).keys ↔
      d = (if (s.keyer n).onAir then .off else .on) ∧
      ((e.isMe = true ∧
          (n = 3 * e.code ∧ (s.engine e).sel.k1 = true ∨
            n = 3 * e.code + 1 ∧ (s.engine e).sel.k2 = true ∨
            n = 3 * e.code + 2 ∧ (s.engine e).sel.k3 = true)) ∨
        (e = .dsk1 ∧ n = 6) ∨ (e = .dsk2 ∧ n = 7))) ∧
    (s.nextElements e).fade =
      if e = .ftb then some (if s.ftb = .clear then .toBlack else .fromBlack) else none) ∧
  ∀ (tag : Tag) (set : EngineSet) (s : State), set ≠ 0#5 →
    (∀ e : EngineId, e.isIn set = true → (s.engine e).next.rate ≠ 0) →
    ∃ t, exec (.take tag set) s = .next t ∧
      t = { s with engines := t.engines, reports := t.reports } ∧
      (∀ e : EngineId,
        (e.isIn set = true → (s.engine e).state = .idle → s.nothingNext e = false →
          t.engine e =
            { s.engine e with
              state := .auto, j := 0, q := 0
              run :=
                some
                  { elements := s.nextElements e
                    settings := (s.engine e).next
                    shape :=
                      if e.isMe then some (s.shape (s.engine e).next.shape) else none
                    driver := .auto } }) ∧
        (e.isIn set = false ∨ (s.engine e).state ≠ .idle ∨ s.nothingNext e = true →
          t.engine e = s.engine e)) ∧
      t.reports =
        (EngineId.all.filter fun e =>
          e.isIn set && ((s.engine e).state != .idle || s.nothingNext e)).foldl
          (fun r e =>
            r.notice ⟨tag, 4, if (s.engine e).state = .idle then .emptyNext else .busy, e.code⟩
              s.timing.field)
          s.reports

/-- CUT to one engine completes a run at once: the one in progress, or in IDLE one latched from the next
settings; with an empty next selection an IDLE M/E refuses it with EMPTY_NEXT (R85, R90 to R93). A TAKE with
rate 0 in IDLE does the same (R84). The keys of the run are distinct, as every latch makes them. A CUT to
several engines is decided for each on its own, and so is a TAKE whatever the rates of its engines: with rate
0 the run completes, with another it starts, and the others are refused, in order of engine number, and stay
as they were (R37, R83, R84, R89). Each run record belongs to its engine, as every step keeps it. -/
def Obligations.CutCompletesTheRun : Prop :=
  (∀ (tag : Tag) (set : EngineSet) (e : EngineId) (s : State),
    (∀ f : EngineId, f.isIn set = decide (f = e)) →
    (∀ r, (s.engine e).state ≠ .idle → (s.engine e).run = some r →
      (r.elements.keys.map Prod.fst).Nodup →
      ∃ t, exec (.cut tag set) s = .next t ∧
        s.completed t e r (s.engine e).lever.leftBehind) ∧
    ((s.engine e).state = .idle → s.nothingNext e = false →
      ∃ t, exec (.cut tag set) s = .next t ∧
        (∃ r, r.elements = s.nextElements e ∧ s.completed t e r (s.engine e).lever.leftBehind) ∧
        ((s.engine e).next.rate = 0 → exec (.take tag set) s = .next t)) ∧
    ((s.engine e).state = .idle → s.nothingNext e = true →
      exec (.cut tag set) s =
        .next { s with reports := s.reports.notice ⟨tag, 5, .emptyNext, e.code⟩ s.timing.field })) ∧
  (∀ (tag : Tag) (set : EngineSet) (s : State), set ≠ 0#5 → s.engines.wf →
    ∃ t, exec (.cut tag set) s = .next t ∧
      t =
        { s with
          matrix := t.matrix, keyers := t.keyers, ftb := t.ftb, engines := t.engines
          reports := t.reports } ∧
      s.completedRuns t (fun e => e.isIn set && !s.refusesEmpty e) s.cutElements ∧
      (∀ e : EngineId, e.isIn set = false ∨ s.refusesEmpty e = true → t.engine e = s.engine e) ∧
      t.reports =
        (EngineId.all.filter fun e => e.isIn set && s.refusesEmpty e).foldl
          (fun r e => r.notice ⟨tag, 5, .emptyNext, e.code⟩ s.timing.field) s.reports) ∧
  ∀ (tag : Tag) (set : EngineSet) (s : State) (starts : EngineId → Bool), set ≠ 0#5 →
    (∀ e, starts e =
      (e.isIn set && (s.engine e).state == .idle && !s.nothingNext e)) →
    ∃ t, exec (.take tag set) s = .next t ∧
      t =
        { s with
          matrix := t.matrix, keyers := t.keyers, ftb := t.ftb, engines := t.engines
          reports := t.reports } ∧
      s.completedRuns t (fun e => starts e && (s.engine e).next.rate == 0) s.nextElements ∧
      (∀ e, starts e = true → (s.engine e).next.rate ≠ 0 →
        t.engine e =
          { s.engine e with
            state := .auto, j := 0, q := 0
            run :=
              some
                { elements := s.nextElements e
                  settings := (s.engine e).next
                  shape := if e.isMe then some (s.shape (s.engine e).next.shape) else none
                  driver := .auto } }) ∧
      (∀ e, starts e = false → t.engine e = s.engine e) ∧
      t.reports =
        (EngineId.all.filter fun e => e.isIn set && !starts e).foldl
          (fun r e =>
            r.notice ⟨tag, 4, if (s.engine e).state = .idle then .emptyNext else .busy, e.code⟩
              s.timing.field)
          s.reports

/-- HOLD puts each engine of the set that is in AUTO in PAUSED, RESUME each one in PAUSED in AUTO, with
its step, its run record and q kept, and the others are refused with NOT_RUNNING in order of engine number
(R86, R87); RELEASE clears the force of each engine of the set and posts nothing (R103). FORCE sets the
forced flag and the value of one engine, above 1024 as 1024 with CLAMPED, and changes no state, step, run
record, q or lever record (R28, R101). -/
def Obligations.HoldResumeReleaseAndForce : Prop :=
  (∀ (tag : Tag) (set : EngineSet) (s : State), set ≠ 0#5 →
    (∃ t, exec (.hold tag set) s = .next t ∧
      t = { s with engines := t.engines, reports := t.reports } ∧
      (∀ e : EngineId, t.engine e =
        if e.isIn set = true ∧ (s.engine e).state = .auto then
          { s.engine e with state := .paused }
        else s.engine e) ∧
      t.reports =
        (EngineId.all.filter fun e => e.isIn set && (s.engine e).state != .auto).foldl
          (fun r e => r.notice ⟨tag, 6, .notRunning, e.code⟩ s.timing.field) s.reports) ∧
    (∃ t, exec (.resume tag set) s = .next t ∧
      t = { s with engines := t.engines, reports := t.reports } ∧
      (∀ e : EngineId, t.engine e =
        if e.isIn set = true ∧ (s.engine e).state = .paused then
          { s.engine e with state := .auto }
        else s.engine e) ∧
      t.reports =
        (EngineId.all.filter fun e => e.isIn set && (s.engine e).state != .paused).foldl
          (fun r e => r.notice ⟨tag, 7, .notRunning, e.code⟩ s.timing.field) s.reports) ∧
    ∃ t, exec (.release tag set) s = .next t ∧ t = { s with engines := t.engines } ∧
      ∀ e : EngineId, t.engine e =
        if e.isIn set = true then { s.engine e with force := none } else s.engine e) ∧
  ∀ (tag : Tag) (e : EngineId) (value : Nat) (s : State),
    ∃ t, exec (.force tag e value) s = .next t ∧
      t = { s with engines := t.engines, reports := t.reports } ∧
      t.engine e = { s.engine e with force := some (min value 1024) } ∧
      (∀ f, f ≠ e → t.engine f = s.engine f) ∧
      t.reports =
        if 1024 < value then s.reports.notice ⟨tag, 10, .clamped, e.code⟩ s.timing.field
        else s.reports

/-- LEVER to an M/E in IDLE, by R96's table: at p = 0 the position is stored and OFFSIDE cleared; with
OFFSIDE set it is stored and no run starts; with an empty next selection it is refused with EMPTY_NEXT and
not stored; else a run is latched with driver LEVER at q = p, and at p = 1024 completes with its sense
flipped (R95, R97). -/
def Obligations.LeverFromIdle : Prop :=
  ∀ (tag : Tag) (me : Me) (position p : Nat) (s : State) (e : EngineId) (x : Engine),
    position ≤ 1024 → e = me.engine → x = s.engine e → x.state = .idle →
    p = (match x.lever.sense with | .up => position | .down => 1024 - position) →
    (p = 0 ∨ x.lever.offside = true →
      ∃ t, exec (.lever tag me position) s = .next t ∧ t = { s with engines := t.engines } ∧
        t.engine e =
          { x with
            lever :=
              { x.lever with
                last := position, offside := x.lever.offside && decide (p ≠ 0) } } ∧
        ∀ f, f ≠ e → t.engine f = s.engine f) ∧
    (p ≠ 0 → x.lever.offside = false → s.nothingNext e = true →
      exec (.lever tag me position) s =
        .next { s with reports := s.reports.notice ⟨tag, 9, .emptyNext, e.code⟩ s.timing.field }) ∧
    (p ≠ 0 → p ≠ 1024 → x.lever.offside = false → s.nothingNext e = false →
      ∃ t, exec (.lever tag me position) s = .next t ∧ t = { s with engines := t.engines } ∧
        t.engine e =
          { x with
            state := .lever, j := 0, q := p
            run :=
              some
                { elements := s.nextElements e, settings := x.next
                  shape := some (s.shape x.next.shape), driver := .lever }
            lever := { x.lever with last := position } } ∧
        ∀ f, f ≠ e → t.engine f = s.engine f) ∧
    (p = 1024 → x.lever.offside = false → s.nothingNext e = false →
      ∃ t, exec (.lever tag me position) s = .next t ∧
        ∃ r, r.elements = s.nextElements e ∧
          s.completed t e r
            { last := position, offside := false
              sense := match x.lever.sense with | .up => .down | .down => .up })

/-- LEVER to an M/E in LEVER moves q to p, completes at p = 1024 with the sense flipped, and abandons the
run at p = 0 with no completion effect (R97); in AUTO or PAUSED it picks the run up at p ≥ q and p > 0 and
otherwise only stores the position (R98). Both clear OFFSIDE as R99 says. -/
def Obligations.LeverMovesAndPicksUpARun : Prop :=
  ∀ (tag : Tag) (me : Me) (position p : Nat) (s : State) (e : EngineId) (x : Engine)
    (r : RunRecord),
    position ≤ 1024 → e = me.engine → x = s.engine e → x.state ≠ .idle → x.run = some r →
    p = (match x.lever.sense with | .up => position | .down => 1024 - position) →
    (r.elements.keys.map Prod.fst).Nodup →
    (x.state = .lever → p = 0 →
      ∃ t, exec (.lever tag me position) s = .next t ∧ t = { s with engines := t.engines } ∧
        t.engine e =
          { x with
            state := .idle, j := 0, q := 0, run := none
            lever := { x.lever with last := position, offside := false } } ∧
        ∀ f, f ≠ e → t.engine f = s.engine f) ∧
    (x.state = .lever → p ≠ 0 → p ≠ 1024 →
      ∃ t, exec (.lever tag me position) s = .next t ∧ t = { s with engines := t.engines } ∧
        t.engine e = { x with q := p, lever := { x.lever with last := position } } ∧
        ∀ f, f ≠ e → t.engine f = s.engine f) ∧
    (x.state ≠ .lever → p < x.q ∨ p = 0 →
      ∃ t, exec (.lever tag me position) s = .next t ∧ t = { s with engines := t.engines } ∧
        t.engine e =
          { x with
            lever :=
              { x.lever with
                last := position, offside := x.lever.offside && decide (p ≠ 0) } } ∧
        ∀ f, f ≠ e → t.engine f = s.engine f) ∧
    (x.state ≠ .lever → x.q ≤ p → p ≠ 0 → p ≠ 1024 →
      ∃ t, exec (.lever tag me position) s = .next t ∧ t = { s with engines := t.engines } ∧
        t.engine e =
          { x with
            state := .lever, q := p, run := some { r with driver := .lever }
            lever := { x.lever with last := position, offside := false } } ∧
        ∀ f, f ≠ e → t.engine f = s.engine f) ∧
    (p = 1024 → x.state = .lever ∨ x.q ≤ p →
      ∃ t, exec (.lever tag me position) s = .next t ∧
        s.completed t e r
          { last := position, offside := false
            sense := match x.lever.sense with | .up => .down | .down => .up })

/-! ## Keyers, generators, monitor -/

/-- SET KEY replaces all eight settings of a keyer, with the gain brought into 16 to 4095, and keeps its
on-air flag (R122); SET MATTE replaces the colour of a matte, each component brought into legal range
(R160); SET MONITOR replaces the MON point (R150). A clamped one posts CLAMPED (R28). -/
def Obligations.KeyMatteAndMonitorSettings : Prop :=
  (∀ (tag : Tag) (n : Nat) (k : KeySettings) (s : State), n ≤ 7 → k.clip ≤ 1023 → k.curve ≤ 7 →
    (∀ m, k.maskShape = some m → m ≤ 15) → k.maskSize ≤ 4095 →
    ∃ t, exec (.setKey tag n k) s = .next t ∧
      t = { s with keyers := t.keyers, reports := t.reports } ∧
      (∀ m, t.keyer m =
        if m = n then
          ⟨{ k with gain := min (max k.gain 16) 4095 }, (s.keyer n).onAir⟩
        else s.keyer m) ∧
      t.reports =
        if k.gain < 16 ∨ 4095 < k.gain then
          s.reports.notice ⟨tag, 11, .clamped, n⟩ s.timing.field
        else s.reports) ∧
  (∀ (tag : Tag) (m : Matte) (c : Colour) (s : State),
    ∃ t, exec (.setMatte tag m c) s = .next t ∧
      t = { s with generators := t.generators, reports := t.reports } ∧
      t.generators.test = s.generators.test ∧
      (∀ m', t.matte m' =
        if m' = m then
          ⟨min (max c.y 64) 940, min (max c.cb 64) 960, min (max c.cr 64) 960⟩
        else s.matte m') ∧
      t.reports =
        if c.y < 64 ∨ 940 < c.y ∨ c.cb < 64 ∨ 960 < c.cb ∨ c.cr < 64 ∨ 960 < c.cr then
          s.reports.notice ⟨tag, 12, .clamped, match m with | .matte1 => 25 | .matte2 => 26⟩
            s.timing.field
        else s.reports) ∧
  ∀ (tag : Tag) (point : MonPoint) (s : State), (∀ n, point = .source n → n ≤ 30) →
    exec (.setMonitor tag point) s = .next { s with mon := point }

/-! ## The path checker -/

/-- CHECKER START, CHECKER STOP, SNAPSHOT KEEP and SNAPSHOT CLEAR (R169, R170). -/
def Obligations.CheckerAndSnapshotCommands : Prop :=
  (∀ (tag : Tag) (point : CheckPoint) (mode : CheckMode) (s : State),
    (∀ n, point = .lane n → 1 ≤ n ∧ n ≤ 24) →
    exec (.checkerStart tag point mode) s =
      .next
        { s with
          checker := ⟨.seeking, point, mode, 0, 0, 0, false, s.checker.snapshot⟩ }) ∧
  (∀ (tag : Tag) (s : State),
    exec (.checkerStop tag) s = .next { s with checker := { s.checker with state := .idle } }) ∧
  ∀ (tag : Tag) (s : State) (record : Snapshot),
    record =
      ⟨s.checker.state, s.checker.checked, s.checker.errored, s.checker.erroredFields,
        s.checker.overflow, s.timing.field⟩ →
    exec (.snapshotKeep tag) s =
      .next { s with checker := { s.checker with snapshot := some record } } ∧
    exec (.snapshotClear tag) s =
      .next
        { s with
          checker :=
            { s.checker with
              checked := 0, errored := 0, erroredFields := 0, overflow := false
              snapshot := some record } }

/-- The judgment of a field: in IDLE none; in SEEKING the checker locks where every sample matches and
counts nothing; in LOCKED the field is counted, by R168's arithmetic for the mode, with CHECKER_ERROR
where M is above 0, and the checker returns to SEEKING where M is more than half the samples (R166 to
R168). M counts the 2·W·H samples, H in field lines, that are not TEST's: sample k differs from
64 + (register of step k) mod 512 (R163, R164), or stands at a place that a short bad line does not fill;
the samples are those of the output lane that is the point, or what the lane that is the point delivers
(R165; unfilled places at an output: log 18). Before field 0 there is no judgment (log 25); a row judges
the field whenever it comes (log 41). -/
def Obligations.JudgmentLocksAndCounts : Prop :=
  (∀ (s : State) (length : Nat), length = 2 * width s.timing.format →
    s.mismatches =
      (List.range (length * activeLines s.timing.format)).countP (fun k =>
        (s.checkedSample (k / length) (k % length)).filled == false ||
          (s.checkedSample (k / length) (k % length)).value != 64 + testRegister (k + 1) % 512) ∧
    (∀ o : OutputLane,
      s.checker.point =
          (match o with
          | .pgm => .pgm
          | .clean => .clean
          | .pvw => .pvw
          | .me1 => .me1
          | .mon => .mon) →
        s.checkedSample = s.outputSample o) ∧
    ∀ n, s.checker.point = .lane n → 1 ≤ n → n ≤ 24 →
      ∀ line place, s.delivers n line place (s.checkedSample line place)) ∧
  ∀ (s : State) (samples : Nat),
    samples = 2 * width s.timing.format * activeLines s.timing.format →
    ∃ t, exec .checkerJudgment s = .next t ∧
    (s.timing.started = false ∨ s.checker.state = .idle → t = s) ∧
    (s.timing.started = true → s.checker.state = .seeking →
      (s.mismatches = 0 → t = { s with checker := { s.checker with state := .locked } }) ∧
      (s.mismatches ≠ 0 → t = s)) ∧
    (s.timing.started = true → s.checker.state = .locked →
      t = { s with checker := t.checker, reports := t.reports } ∧
      t.checker.point = s.checker.point ∧ t.checker.mode = s.checker.mode ∧
      t.checker.snapshot = s.checker.snapshot ∧
      (t.checker.state = .seeking ↔ samples < 2 * s.mismatches) ∧
      (t.checker.state = .locked ↔ 2 * s.mismatches ≤ samples) ∧
      (∀ fields, fields = s.checker.erroredFields + (if s.mismatches = 0 then 0 else 1) →
        (s.checker.mode = .saturate → s.checker.countersInRange →
          t.checker.checked = min (s.checker.checked + 1) 65535 ∧
          t.checker.errored = min (s.checker.errored + s.mismatches) 65535 ∧
          t.checker.erroredFields = min fields 65535) ∧
        (s.checker.mode = .wrap → s.checker.countersInRange →
          t.checker.checked = (s.checker.checked + 1) % 65536 ∧
          t.checker.errored = (s.checker.errored + s.mismatches) % 65536 ∧
          t.checker.erroredFields = fields % 65536) ∧
        (s.checker.countersInRange →
          (t.checker.overflow = true ↔
            s.checker.overflow = true ∨ 65535 < s.checker.checked + 1 ∨
              65535 < s.checker.errored + s.mismatches ∨ 65535 < fields))) ∧
      t.reports =
        if s.mismatches = 0 then s.reports
        else s.reports.post .checkerError 0 (min s.mismatches 32767 : Nat) s.timing.field)

/-! ## Reports and conditions -/

/-- A posted condition is a recurrence of the entry of its kind and subject, or a new entry while fewer
than 32 stand, or is dropped with the list-full flag set (R177). A posted notice joins the list behind the
others while it holds fewer than 8; else the overflow count rises by one, at most to 255, and its rise from
0 to 1 records NOTICE_OVERFLOW (R176). -/
def Obligations.PostingOfConditionsAndNotices : Prop :=
  (∀ (r : Reports) (kind : ConditionKind) (subject : Nat) (detail : Int) (field : FieldNo)
    (t : Reports), r.wf → t = r.post kind subject detail field →
    t = { r with conditions := t.conditions, listFull := t.listFull } ∧
    ((∃ c ∈ r.conditions, c.kind = kind ∧ c.subject = subject) →
      t.listFull = r.listFull ∧ t.conditions.length = r.conditions.length ∧
      ∀ (i : Nat) (c : Condition), r.conditions[i]? = some c →
        t.conditions[i]? =
          some (if c.kind = kind ∧ c.subject = subject then
              ⟨kind, subject, c.first, field, min 255 (c.count + 1), detail⟩
            else c)) ∧
    ((∀ c ∈ r.conditions, ¬(c.kind = kind ∧ c.subject = subject)) →
      r.conditions.length < 32 →
      t.listFull = r.listFull ∧
        t.conditions = r.conditions ++ [⟨kind, subject, field, field, 1, detail⟩]) ∧
    ((∀ c ∈ r.conditions, ¬(c.kind = kind ∧ c.subject = subject)) →
      r.conditions.length = 32 → t.listFull = true ∧ t.conditions = r.conditions)) ∧
  ∀ (r : Reports) (x : Notice) (field : FieldNo),
    (r.notices.length < 8 → r.notice x field = { r with notices := r.notices ++ [x] }) ∧
    (r.notices.length = 8 → r.overflow = 0 →
      r.notice x field = { r with overflow := 1 }.post .noticeOverflow 0 0 field ∧
      (r.notice x field).notices = r.notices ∧ (r.notice x field).overflow = 1) ∧
    (r.notices.length = 8 → r.overflow ≠ 0 →
      r.notice x field = { r with overflow := min 255 (r.overflow + 1) })

/-- CLEAR CONDITIONS removes every entry, or the one of its kind and subject, and clears the list-full flag
where fewer than 32 entries remain (R179); SET REPORTS replaces the enables and the mask (R180). -/
def Obligations.ClearConditionsAndSetReports : Prop :=
  (∀ (tag : Tag) (s : State), exec (.clearConditionsAll tag) s =
    .next { s with reports := { s.reports with conditions := [], listFull := false } }) ∧
  (∀ (tag : Tag) (kind : ConditionKind) (subject : Nat) (s : State), subject ≤ 25 →
    ∃ t, exec (.clearConditionsOne tag kind subject) s = .next t ∧
      t = { s with reports := t.reports } ∧
      t.reports =
        { s.reports with conditions := t.reports.conditions, listFull := t.reports.listFull } ∧
      (∀ c, c ∈ t.reports.conditions ↔
        c ∈ s.reports.conditions ∧ ¬(c.kind = kind ∧ c.subject = subject)) ∧
      t.reports.conditions.Sublist s.reports.conditions ∧
      t.reports.listFull =
        (s.reports.listFull && decide (32 ≤ t.reports.conditions.length))) ∧
  ∀ (tag : Tag) (enables : Enables) (mask : KindSet) (s : State),
    exec (.setReports tag enables mask) s =
      .next { s with reports := { s.reports with enables := enables, mask := mask } }

/-- The reports of a field: the enabled packets in the order STATUS, TALLY, NOTICES, the last only where
it would carry something (R173, R178); STATUS takes the waiting snapshot (R171), NOTICES the notices and
the overflow count (R176). Before field 0 there are none (log 25). The payloads (R184): STATUS 97 bytes
where the five engines are reported, TALLY 10, NOTICES 7 + 5n + 9c, each with its items at the byte places
of the table. The condition entries carried are the unmasked ones in the priority of their kinds and, in
one kind, in order of addition, the first 8 (R178). The reports are those of the field in progress whenever
the row comes (log 45); the lane states and the snapshot are read at the formation, the other items of STATUS
are those stored at the field start (log 24). A second row in a field forms the reports again in place of the
first (log 42). -/
def Obligations.ReportsAreFormedInOrder : Prop :=
  (∀ s : State, ∃ t, exec .reportFormation s = .next t ∧
    (s.timing.started = false → t = s) ∧
    (s.timing.started = true →
      ∀ carries : Prop,
      (carries ↔ s.reports.enables.notices = true ∧
        (s.reports.notices ≠ [] ∨ s.reports.overflow ≠ 0 ∨
          (∃ c ∈ s.reports.conditions, s.reports.mask.getLsbD c.kind.code = false) ∨
          s.reports.listFull = true)) →
      t = { s with packets := t.packets, checker := t.checker, reports := t.reports } ∧
      t.checker =
        (if s.reports.enables.status then { s.checker with snapshot := none } else s.checker) ∧
      (carries → t.reports = { s.reports with notices := [], overflow := 0 } ∧
        t.packets =
          (if s.reports.enables.status then [framePacket .status s.statusPayload] else []) ++
          (if s.reports.enables.tally then [framePacket .tally s.tallyPayload] else []) ++
          [framePacket .notices s.noticesPayload]) ∧
      (¬carries → t.reports = s.reports ∧
        t.packets =
          (if s.reports.enables.status then [framePacket .status s.statusPayload] else []) ++
          (if s.reports.enables.tally then [framePacket .tally s.tallyPayload] else [])))) ∧
  ∀ s : State,
    (s.status.engines.length = 5 → s.statusPayload.length = 97) ∧ s.tallyPayload.length = 10 ∧
    s.noticesPayload.length = 7 + 5 * s.reports.notices.length + 9 * s.reports.chosen.length ∧
    chosenByPriority
      (s.reports.conditions.filter fun c => s.reports.mask.getLsbD c.kind.code == false)
      s.reports.chosen ∧
    (s.status.engines.length = 5 → s.statusLaidOut s.status s.statusPayload) ∧
    s.tallyLaidOut s.tallyPayload ∧ s.noticesLaidOut s.reports.chosen s.noticesPayload

/-- At an output field start, whichever row raises it, the tally sets and the STATUS items are those of the
state that the field's deliveries, steps and exchanges leave (R144, R155, R156, R174), each item of
STATUS written out (R34, R69, R106, R181) and stored at the end of the field start (log 24): of an engine its
state, j, the rate of its run or 0 in IDLE, q_d and the forced flag. A source is in the preview set, and with bypass OFF in the program set, where it is enabled, not tally-exempt and not 30, and
is held on a bus that contributes: an A bus at background weight below 1024, a B bus above 0, the fill and
key source buses of a keyer at weight above 0 without an inverted full mask (R152, R153), of bank 2 under
its look-ahead or its displayed view and of the downstream keys at their kf; or on one of bank 1's under
its displayed view, where an enabled source 29 is held on such a bus (R154). Under bypass the program set is
the bypass source alone, where it is enabled and not exempt (R72). The rows ENTER_LOCKED and
ENTER_HOLDOVER: log 4. -/
def Obligations.FieldStartFormsTallyAndStatus : Prop :=
  ∀ (i : Instr) (s : State), s.startsField i → ∃ t, exec i s = .next t ∧
    t.status = t.statusView ∧ t.status.number = s.timing.counter ∧
    t.status.number = t.timing.field ∧ t.status.parity = t.timing.parity ∧
    t.status.format = t.timing.format ∧ t.status.ref = t.timing.ref ∧
    t.status.cause = t.reports.cause ∧ t.status.depth = t.waiting.entries.length ∧
    t.status.hold = t.waiting.hold ∧ t.status.bypass = t.matrix.bypass ∧
    t.status.engines.length = 5 ∧
    (∀ (e : EngineId) (x : Engine), x = t.engine e →
      ∃ r : EngineReport, t.status.engines[e.code]? = some r ∧ r.state = x.state ∧ r.j = x.j ∧
        (x.state = .idle → r.rate = 0) ∧
        (∀ run, x.state ≠ .idle → x.run = some run → r.rate = run.settings.rate) ∧
        (∀ value, x.force = some value → r.shown = value ∧ r.forced = true) ∧
        (x.force = none → r.shown = x.q ∧ r.forced = false)) ∧
    t.status.onAir.length = 8 ∧
    (∀ n, n ≤ 7 → t.status.onAir[n]? = some (t.keyer n).onAir) ∧ t.status.ftb = t.ftb ∧
    t.status.lever1 = (t.engine .me1).lever ∧ t.status.lever2 = (t.engine .me2).lever ∧
    t.status.dirtyShapes = t.tables.dirtyShapes ∧ t.status.dirtyCurves = t.tables.dirtyCurves ∧
    t.status.dirtySources = t.tables.dirtySources ∧ t.status.checker = t.checker.state ∧
    (∀ n, n ≤ 30 → (look t.tally.preview n false = true ↔ t.inTally true n)) ∧
    (t.matrix.bypass = none →
      ∀ n, n ≤ 30 → (look t.tally.program n false = true ↔ t.inTally false n)) ∧
    ∀ b, t.matrix.bypass = some b → ∀ n, n ≤ 30 →
      (look t.tally.program n false = true ↔
        n = b ∧ n ≠ 30 ∧ (t.source n).enabled = true ∧ (t.source n).exempt = false)

/-! ## Picture arithmetic -/

/-- The mix of two samples is floor((P·(1024 − k) + Q·k + 512)/1024); it lies between P and Q inclusive,
is P at k = 0, Q at k = 1024, and P where P = Q (R123). -/
def Obligations.MixLiesBetweenItsSamples : Prop :=
  ∀ p q k : Nat, k ≤ 1024 →
    mix p q k = (p * (1024 - k) + q * k + 512) / 1024 ∧
    min p q ≤ mix p q k ∧ mix p q k ≤ max p q ∧ mix p q 0 = p ∧ mix p q 1024 = q ∧
    mix p p k = p

/-- The curve stage of R126: at 1024 it is T[32]; else with i = floor(α/32) and f = α − 32i it is
T[i] + floor(((T[i+1] − T[i])·f + 16)/32), between T[i] and T[i+1] inclusive, T[i] itself at f = 0; within
0 to 1024 where every point is; and the identity curve returns α. -/
def Obligations.CurveInterpolatesBetweenPoints : Prop :=
  (∀ c : Curve, curveKey c 1024 = curvePoint c 32) ∧
  (∀ (c : Curve) (i f : Nat), i ≤ 31 → f ≤ 31 →
    (curveKey c (32 * i + f) : Int) =
      (curvePoint c i : Int) +
        (((curvePoint c (i + 1) : Int) - (curvePoint c i : Int)) * (f : Int) + 16) / 32 ∧
    min (curvePoint c i) (curvePoint c (i + 1)) ≤ curveKey c (32 * i + f) ∧
    curveKey c (32 * i + f) ≤ max (curvePoint c i) (curvePoint c (i + 1)) ∧
    curveKey c (32 * i) = curvePoint c i) ∧
  (∀ (c : Curve) (a : Nat), a ≤ 1024 → (∀ i, i ≤ 32 → curvePoint c i ≤ 1024) →
    curveKey c a ≤ 1024) ∧
  ∀ a : Nat, a ≤ 1024 → curveKey identityCurve a = a

/-- The rest of the key chain (R124, R125, R127, R128, R130): α_lin of a LUMA keyer is 0 at and below the
clip and min(1024, floor((d·gain + 8)/16)) above it, of a LINEAR keyer floor(((s′ − 64)·1024 + 438)/876),
which rises by one or two for each step of luma from 64 to 940; α_i is 1024 − α_c with invert on and α_c
with it off, from 0 to 1024; every stage of a chain lies within 0 to 1024, α_on is at most α_m, is α_m at
kf = 1024 and 0 at kf = 0. The fade coefficient kf of a keyer, by R129's table, and the keyer's output
(R131): the mix of the picture beneath and the fill at α_on, whose luma, mask and kf are those of the place's
own pixel or, for chroma, of the left pixel of the pair. -/
def Obligations.KeyChainStaysWithinRange : Prop :=
  (∀ (k : KeySettings) (luma : Nat), k.type = .luma →
    (luma ≤ k.clip → deriveKey k luma = 0) ∧
    (k.clip < luma →
      deriveKey k luma = min 1024 (((luma - k.clip) * k.gain + 8) / 16))) ∧
  (∀ (k : KeySettings) (luma : Nat), k.type = .linear →
    deriveKey k luma = ((min (max luma 64) 940 - 64) * 1024 + 438) / 876 ∧
      (64 ≤ luma → luma < 940 →
        deriveKey k (luma + 1) = deriveKey k luma + 1 ∨
          deriveKey k (luma + 1) = deriveKey k luma + 2)) ∧
  (∀ (k : KeySettings) (luma : Nat), deriveKey k luma ≤ 1024) ∧
  (∀ (b : Bool) (a : Nat), (invertKey b a = if b then 1024 - a else a) ∧
    (a ≤ 1024 → invertKey b a ≤ 1024)) ∧
  (∀ (k : KeySettings) (c : Curve) (luma m kf am : Nat),
    (∀ i, i ≤ 32 → curvePoint c i ≤ 1024) → m = 0 ∨ m = 1024 → kf ≤ 1024 →
    am = (if m = 0 then 0 else invertKey k.invert (curveKey c (deriveKey k luma))) →
    am ≤ 1024 ∧ keyChain k c luma m kf = (am * kf + 512) / 1024 ∧
    keyChain k c luma m kf ≤ am ∧ keyChain k c luma m 1024 = am ∧ keyChain k c luma m 0 = 0) ∧
  (∀ (s : State) (n : Nat) (e : EngineId) (idle : Nat), n ≤ 7 →
    e = (if n ≤ 2 then .me1 else if n ≤ 5 then .me2 else if n = 6 then .dsk1 else .dsk2) →
    idle = (if (s.keyer n).onAir then 1024 else 0) →
    (∀ r shown, (s.engine e).state ≠ .idle → (s.engine e).run = some r →
      (r.elements.keys.map Prod.fst).Nodup →
      shown = (s.engine e).force.getD (s.engine e).q →
      ((n, .on) ∈ r.elements.keys → s.keyFade n = shown) ∧
      ((n, .off) ∈ r.elements.keys → s.keyFade n = 1024 - shown) ∧
      (n ∉ r.elements.keys.map Prod.fst → s.keyFade n = idle)) ∧
    ((s.engine e).state = .idle →
      ((s.engine e).force = none → s.keyFade n = idle) ∧
      ∀ value, (s.engine e).force = some value →
        (n ∉ (s.nextElements e).keys.map Prod.fst → s.keyFade n = idle) ∧
        (n ∈ (s.nextElements e).keys.map Prod.fst →
          s.keyFade n = if (s.keyer n).onAir then 1024 - value else value))) ∧
  ∀ (s : State) (n kf line place a : Nat) (k : KeySettings) (fill keySource under : Picture),
    k = (s.keyer n).settings →
    a = keyChain k (s.curve k.curve) (keySource line (2 * columnOf place + 1)).value
      (s.mask k (s.uv line place).1 (s.uv line place).2) kf →
    (s.keyOver n kf fill keySource under line place).value =
        ((under line place).value * (1024 - a) + (fill line place).value * a + 512) / 1024 ∧
      (a = 0 → s.keyOver n kf fill keySource under line place = under line place) ∧
      (a = 1024 → s.keyOver n kf fill keySource under line place = fill line place)

/-- The wipe (R109 to R111, R113, R114): the distance of the five kinds, also reversed; the front
floor(q_d·(4096 + bw + sw)/1024); and the two coefficients by the region of the excess e = T − r: not
reached, soft, border, passed. At its limits (R117): at q_d = 0 every pixel is A whole, at q_d = 1024 every
pixel is B whole with no border, with no border and no softness a pixel shows A where r ≥ 4·q_d and B where
r < 4·q_d. Ranges: the front within 0 to 4606, the coefficients within 0 to 1024, u, v and every distance
within 0 to 4095 (R108). The key mask (R118), and the background of a bank (R112, R115, R116): A whole where
it is not driven, the mix of A and B at q_d for MIX, and for WIPE that mix at k_ab, mixed with the border
matte at k_bd, each place with the coefficients of its own pixel or, for chroma, the left one of the pair. -/
def Obligations.WipeFrontAndDistances : Prop :=
  (∀ t r border softness e : Nat, e = t - r →
    (t ≤ r → wipeCoefficients t r border softness = ⟨0, 0⟩) ∧
    (r < t → e ≤ softness → border = 0 →
      wipeCoefficients t r border softness = ⟨e * 1024 / (softness + 1), 0⟩) ∧
    (r < t → e ≤ softness → 0 < border →
      wipeCoefficients t r border softness = ⟨0, e * 1024 / (softness + 1)⟩) ∧
    (r < t → e ≤ softness → e * 1024 / (softness + 1) ≤ 1023) ∧
    (r < t → softness < e → e ≤ softness + border →
      wipeCoefficients t r border softness = ⟨1024, 1024⟩) ∧
    (r < t → softness + border < e → wipeCoefficients t r border softness = ⟨1024, 0⟩) ∧
    (wipeCoefficients t r border softness).ab ≤ 1024 ∧
    (wipeCoefficients t r border softness).bd ≤ 1024 ∧
    (border = 0 → (wipeCoefficients t r border softness).bd = 0)) ∧
  (∀ r border softness shown : Nat, r ≤ 4095 → border ≤ 255 → softness ≤ 255 → shown ≤ 1024 →
    wipeFront shown border softness = shown * (4096 + border + softness) / 1024 ∧
    wipeFront shown border softness ≤ 4606 ∧
    wipeCoefficients (wipeFront 0 border softness) r border softness = ⟨0, 0⟩ ∧
    wipeCoefficients (wipeFront 1024 border softness) r border softness = ⟨1024, 0⟩ ∧
    wipeFront 1 border softness = 4 ∧
    (4 * shown ≤ r → wipeCoefficients (wipeFront shown 0 0) r 0 0 = ⟨0, 0⟩) ∧
    (r < 4 * shown → wipeCoefficients (wipeFront shown 0 0) r 0 0 = ⟨1024, 0⟩)) ∧
  (∀ (s : State) (line place : Nat), place < 2 * width s.timing.format →
    line < activeLines s.timing.format →
    s.coordinates line place = s.uv line place ∧ (s.uv line place).1 ≤ 4095 ∧
      (s.uv line place).2 ≤ 4095) ∧
  (∀ (r : ShapeRecord) (u v du dv : Nat), u ≤ 4095 → v ≤ 4095 →
    du = ((u : Int) - (r.cu : Int)).natAbs →
    dv = ((v : Int) - (r.cv : Int)).natAbs * r.aspect / 16 →
    wipeDistance r u v =
        (match r.kind with
        | .horizontal => u
        | .vertical => v
        | .diagonal => (u + v) / 2
        | .box => min 4095 (2 * max du dv)
        | .diamond => min 4095 (du + dv)) ∧
      wipeDistance r u v ≤ 4095 ∧ reversed false (wipeDistance r u v) = wipeDistance r u v ∧
      reversed true (wipeDistance r u v) + wipeDistance r u v = 4095) ∧
  (∀ (s : State) (k : KeySettings) (u v : Nat),
    (k.maskShape = none → s.mask k u v = 1024) ∧
    ∀ n, k.maskShape = some n →
      s.mask k u v =
        if (wipeDistance (s.shape n) u v ≤ k.maskSize) ↔ k.maskInvert = false then 1024 else 0) ∧
  ∀ (s : State) (e : EngineId) (a b : Picture) (line place : Nat),
    (∀ settings shape shown,
      ((∃ r, (s.engine e).state ≠ .idle ∧ (s.engine e).run = some r ∧ r.elements.bkgd = true ∧
          settings = r.settings ∧ r.shape = some shape) ∨
        ((s.engine e).state = .idle ∧ (s.engine e).force ≠ none ∧ e.isMe = true ∧
          (s.engine e).sel.bkgd = true ∧ settings = (s.engine e).next ∧
          shape = s.shape settings.shape)) →
      shown = (s.engine e).force.getD (s.engine e).q →
      (settings.style = .mix →
        s.background e a b line place = Sample.mix (a line place) (b line place) shown) ∧
      (settings.style = .wipe → ∀ k,
        k = wipeCoefficients (wipeFront shown settings.border settings.softness)
          (reversed settings.reverse
            (wipeDistance shape (s.uv line place).1 (s.uv line place).2))
          settings.border settings.softness →
        s.background e a b line place =
          Sample.mix (Sample.mix (a line place) (b line place) k.ab)
            (.of (Colour.at (s.matte settings.matte) place)) k.bd)) ∧
    ((s.engine e).state = .idle ∧ ((s.engine e).force = none ∨ (s.nextElements e).bkgd = false) ∨
        (∃ r, (s.engine e).state ≠ .idle ∧ (s.engine e).run = some r ∧
          r.elements.bkgd = false) →
      s.background e a b line place = a line place)

/-- BARS and TEST (R162 to R164): the rows of the bars, each bar an eighth of every line of every field;
the TEST register seeded with 1 and stepped once for each sample before it, never 0; a TEST sample 64 plus
the register modulo 512, from 64 to 575, the first sixteen steps those of R164's table; legalise leaves
both pictures as they are. -/
def Obligations.BarsAndTestSamples : Prop :=
  ((List.range 8).map barColour =
    [⟨721, 512, 512⟩, ⟨674, 176, 543⟩, ⟨581, 589, 176⟩, ⟨534, 253, 207⟩, ⟨251, 771, 817⟩,
      ⟨204, 435, 848⟩, ⟨111, 848, 481⟩, ⟨64, 512, 512⟩]) ∧
  (∀ (s : State) (me1 me2 : Picture) (line x b w : Nat), w = width s.timing.format → x < w →
    b = x * 8 / w →
    b = x / (if s.timing.format = .uhd2160 then 480 else 240) ∧
    s.rawPicture me1 me2 27 line (2 * x + 1) = .of (barColour b).y ∧
    s.rawPicture me1 me2 27 line (4 * (x / 2)) = .of (barColour b).cb ∧
    s.rawPicture me1 me2 27 line (4 * (x / 2) + 2) = .of (barColour b).cr) ∧
  (testRegister 0 = 1 ∧ ∀ n, testRegister (n + 1) = testStep (testRegister n)) ∧
  (∀ r, 1 ≤ r → r ≤ 32767 → 1 ≤ testStep r ∧ testStep r ≤ 32767 ∧
    testStep r = 2 * r % 32768 + (if r.testBit 14 = r.testBit 13 then 0 else 1)) ∧
  (∀ (s : State) (me1 me2 : Picture) (line place : Nat),
    ∃ test bar : Nat, s.rawPicture me1 me2 28 line place = .of test ∧
      s.rawPicture me1 me2 27 line place = .of bar ∧
      test = 64 + testRegister (line * (2 * width s.timing.format) + place + 1) % 512 ∧
      64 ≤ test ∧ test ≤ 575 ∧ legalise place test = test ∧
      (place < 2 * width s.timing.format → legalise place bar = bar)) ∧
  (List.range 16).map (fun k => (testRegister (k + 1), 64 + testRegister (k + 1) % 512)) =
    [(2, 66), (4, 68), (8, 72), (16, 80), (32, 96), (64, 128), (128, 192), (256, 320), (512, 64),
      (1024, 64), (2048, 64), (4096, 64), (8192, 64), (16385, 65), (3, 67), (6, 70)]

/-- What the outputs carry. Before field 0 every sample of every line, blanking lines among them, is BLACK
(R7). Every row that starts a field leaves the outputs on the state then reached (R63, R144), and no panel
command taken as a row within the field but SET FORMAT changes an active sample of it (R74, log 3). A
source: BLACK where disabled, its own picture, what its lane delivers among them (R11), legalised where its
record says so (R63, R65). Each bank lays K1, K2 and K3 over its background, ME2's buses carrying ME1's
output of the same field as source 29 (R64, R121, R133, R134; an ME1 bus with 29: log 30). The downstream
stage lays DSK1, then DSK2 (R137); PGM and CLEAN are faded at f (R138, R139), or carry the bypass source
(R70, R145). The look-ahead view: the run's participants, or the next selection; a picture with B whole
where it has BKGD, else A, each key at 1024, 0 or its idle kf (R147, R148). PVW: bank 2's look-ahead under
the downstream keys (R149). The ME1 lane: bank 1's output (R146). MON: the picture of its point (R151). On a
blanking line of MON the Y places carry the words of the field's packets, one after another from the first
blanking line on (R173; log 23), and 64 where there is none (R182). Every line of every output has 2·W places
and ends with the check word of its samples: their sum modulo 512, and bit 9 the inverse of bit 8 (R185). -/
def Obligations.OutputsCarryTheirPictures : Prop :=
  (∀ (s : State) (o : OutputLane) (line place : Nat), s.timing.started = false →
    s.outputSample o line place = .of (Colour.at ⟨64, 512, 512⟩ place) ∧
      s.lineSample o line place = Colour.at ⟨64, 512, 512⟩ place) ∧
  (∀ (i : Instr) (s : State), s.startsField i →
    ∃ t, exec i s = .next t ∧ t.timing.started = true ∧ t.asShown = t) ∧
  (∀ (i : Instr) (tag : Tag) (c : Command) (s : State), i.command? = some (tag, c) →
    (∀ f, c ≠ .setFormat f) →
    ∃ t, exec i s = .next t ∧ ∀ o, t.outputSample o = s.outputSample o) ∧
  (∀ (s : State) (o : OutputLane) (line place : Nat), s.timing.started = true →
    s.outputSample o = s.asShown.outputPicture o ∧
      (line < activeLines s.timing.format →
        s.lineSample o line place = (s.outputSample o line place).value)) ∧
  (∀ (s : State) (line x n : Nat), s.timing.started = true → x < width s.timing.format →
    n = line * width s.timing.format + x →
    (∀ w, s.packets.flatten[n]? = some w →
      s.lineSample .mon (activeLines s.timing.format + line) (2 * x + 1) = w.toNat) ∧
    (s.packets.flatten.length ≤ n →
      s.lineSample .mon (activeLines s.timing.format + line) (2 * x + 1) = 64)) ∧
  (∀ (s : State) (o : OutputLane) (line : Nat) (words : List LinkWord) (check : LinkWord),
    s.outputLine o line = (words, check) →
    words.length = 2 * width s.timing.format ∧
      (∀ k, k < 2 * width s.timing.format →
        words[k]? = some (BitVec.ofNat 10 (s.lineSample o line k))) ∧
      check.toNat % 512 = (words.map BitVec.toNat).sum % 512 ∧
      check.getLsbD 9 = !check.getLsbD 8) ∧
  (∀ (s : State) (me1 me2 : Picture) (n line place : Nat) (x : Sample),
    x = s.rawPicture me1 me2 n line place →
    s.sourcePicture me1 me2 n line place =
        (if (s.source n).enabled = false then .of (Colour.at ⟨64, 512, 512⟩ place)
        else if (s.source n).legalise = false then x
        else if place % 2 = 1 then { x with value := min (max x.value 64) 940 }
        else { x with value := min (max x.value 64) 960 }) ∧
      (n = 0 → x = .of (Colour.at ⟨64, 512, 512⟩ place)) ∧
      (1 ≤ n → n ≤ 24 → s = s.asShown → s.delivers n line place x) ∧
      (n = 25 → x = .of (Colour.at s.generators.matte1 place)) ∧
      (n = 26 → x = .of (Colour.at s.generators.matte2 place)) ∧
      (n = 29 → x = me1 line place) ∧ (n = 30 → x = me2 line place)) ∧
  (∀ (s : State) (n : Nat) (e : EngineId) (view : Elements), n ≤ 5 →
    e = (if n ≤ 2 then .me1 else .me2) →
    ((s.engine e).state = .idle ∧ view = s.nextElements e ∨
      ∃ r, (s.engine e).state ≠ .idle ∧ (s.engine e).run = some r ∧ view = r.elements) →
    s.lookAhead e = view ∧
      ((view.keys.map Prod.fst).Nodup →
        ((n, .on) ∈ view.keys → s.aheadFade n = 1024) ∧
        ((n, .off) ∈ view.keys → s.aheadFade n = 0) ∧
        (n ∉ view.keys.map Prod.fst →
          s.aheadFade n = if (s.keyer n).onAir then 1024 else 0))) ∧
  ∀ (s : State) (bus bus1 : Nat → Picture) (lay lay1 : (Nat → Nat) → Nat → Picture → Picture)
    (f : Nat) (fade : Picture → Picture),
    (∀ b, bus1 b = s.sourcePicture blackPicture blackPicture (s.bus b)) →
    (∀ b, bus b = s.sourcePicture s.me1Output blackPicture (s.bus b)) →
    (∀ kf n under,
      lay kf n under = s.keyOver n (kf n) (bus (keyBus n)) (bus (keyBus n + 1)) under ∧
      lay1 kf n under = s.keyOver n (kf n) (bus1 (keyBus n)) (bus1 (keyBus n + 1)) under) →
    f = s.ftbFade →
    (∀ p line place, fade p line place =
      Sample.mix (p line place) (.of (Colour.at ⟨64, 512, 512⟩ place)) f) →
    s.me1Output =
        lay1 s.keyFade 2 (lay1 s.keyFade 1
          (lay1 s.keyFade 0 (s.background .me1 (bus1 0) (bus1 1)))) ∧
      s.me2Output =
        lay s.keyFade 5 (lay s.keyFade 4
          (lay s.keyFade 3 (s.background .me2 (bus 8) (bus 9)))) ∧
      ((∀ r, (s.engine .ftb).state ≠ .idle → (s.engine .ftb).run = some r →
          ∀ shown, shown = (s.engine .ftb).force.getD (s.engine .ftb).q →
          (r.elements.fade = some .toBlack → f = shown) ∧
          (r.elements.fade = some .fromBlack → f = 1024 - shown)) ∧
        ((s.engine .ftb).state = .idle →
          (∀ value, (s.engine .ftb).force = some value →
            f = if s.ftb = .clear then value else 1024 - value) ∧
          ((s.engine .ftb).force = none → f = if s.ftb = .clear then 0 else 1024))) ∧
      (∀ n, s.matrix.bypass = some n →
        s.pgm = s.sourcePicture s.me1Output blackPicture n ∧ s.clean = s.pgm) ∧
      (s.matrix.bypass = none →
        s.pgm = fade (lay s.keyFade 7 (lay s.keyFade 6 s.me2Output)) ∧
        s.clean = fade s.me2Output) ∧
      (f = 1024 → fade s.me2Output = blackPicture) ∧ (f = 0 → fade s.me2Output = s.me2Output) ∧
      (s.keyFade 6 = 0 → s.keyFade 7 = 0 → s.pgm = s.clean) ∧
      s.pvw =
        lay s.keyFade 7 (lay s.keyFade 6
          (lay s.aheadFade 5 (lay s.aheadFade 4
            (lay s.aheadFade 3 (if (s.lookAhead .me2).bkgd then bus 9 else bus 8))))) ∧
      s.me1LookAhead =
        lay1 s.aheadFade 2 (lay1 s.aheadFade 1
          (lay1 s.aheadFade 0 (if (s.lookAhead .me1).bkgd then bus1 1 else bus1 0))) ∧
      s.outputPicture .pgm = s.pgm ∧ s.outputPicture .clean = s.clean ∧
      s.outputPicture .pvw = s.pvw ∧ s.outputPicture .me1 = s.me1Output ∧
      s.outputPicture .mon =
        match s.mon with
        | .pgm => s.pgm
        | .clean => s.clean
        | .pvw => s.pvw
        | .me1 => s.me1Output
        | .me1LookAhead => s.me1LookAhead
        | .source n => s.sourcePicture s.me1Output s.me2Output n

/-! ## What every step keeps -/

/-- Every step keeps the Pending List in its order, within its capacity, with every due field ahead, and
its hold flag as the edges of its band leave it (R33, R34). -/
def Obligations.EveryStepKeepsThePendingList : Prop :=
  ∀ s t : State, s.listOrdered → s.waiting.holdAgrees → step s = .next t →
    t.listOrdered ∧ t.waiting.holdAgrees

/-- Every step keeps the re-entry restriction and the range of the bypass and of its request, in the state
and in what the field in progress shows, and the admissibility of every waiting entry (R26, R28, R29, R60,
R69). -/
def Obligations.EveryStepKeepsTheReentryRestriction : Prop :=
  ∀ s t : State, s.entriesAdmissible → s.busesKeepReentry → s.bypassInRange → step s = .next t →
    t.entriesAdmissible ∧ t.busesKeepReentry ∧ t.bypassInRange

/-- Every step keeps the five engines as R75, R80, R81 and R99 describe them, each run record belonging to
its engine, with distinct keys of that engine's keyers (R55, R78), while the waiting entries are
admissible. -/
def Obligations.EveryStepKeepsTheEngines : Prop :=
  ∀ s t : State, s.entriesAdmissible → s.engines.wf → step s = .next t → t.engines.wf

/-- Every step keeps the lane records and the Command Receiver in their ranges, a TIMED lane at the delay
of its lateness, and no packet in reception while lane C takes none, while the waiting entries are
admissible (R10 to R16, R23, R24). -/
def Obligations.EveryStepKeepsTheLanes : Prop :=
  ∀ s t : State, s.entriesAdmissible → (∀ n, isLane n = true → (s.lane n).wf) → s.receiverWf →
    step s = .next t → (∀ n, isLane n = true → (t.lane n).wf) ∧ t.receiverWf

/-- Every step keeps the notice list, the condition list and the counters of the path checker within their
capacities, and no two condition entries of one kind and subject (R168, R176, R177). -/
def Obligations.EveryStepKeepsReportsAndCounters : Prop :=
  ∀ s t : State, s.reports.wf → s.checker.countersInRange → step s = .next t →
    t.reports.wf ∧ t.checker.countersInRange

/-- Every step keeps the agreement of SHADOW, ACTIVE and the dirty flags, the range of the curve points,
the legal colours of the mattes, the TEST register off 0, and parity as the format has it, while the
waiting entries are admissible (R1, R8, R40, R44, R160, R163). -/
def Obligations.EveryStepKeepsTablesGeneratorsAndParity : Prop :=
  ∀ s t : State, s.entriesAdmissible → s.tables.dirtyAgrees → s.tables.pointsInRange →
    s.generators.wf → s.timing.parityAgrees → step s = .next t →
    t.tables.dirtyAgrees ∧ t.tables.pointsInRange ∧ t.generators.wf ∧ t.timing.parityAgrees

/-- The state after reset meets what every step keeps. -/
def Obligations.ResetMeetsWhatEveryStepKeeps : Prop :=
  State.reset.entriesAdmissible ∧ State.reset.busesKeepReentry ∧ State.reset.bypassInRange ∧
    State.reset.listOrdered ∧ State.reset.waiting.holdAgrees ∧ State.reset.engines.wf ∧
    (∀ n, isLane n = true → (State.reset.lane n).wf) ∧ State.reset.receiverWf ∧
    State.reset.reports.wf ∧ State.reset.checker.countersInRange ∧
    State.reset.tables.dirtyAgrees ∧ State.reset.tables.pointsInRange ∧
    State.reset.generators.wf ∧ State.reset.timing.parityAgrees
end

