-- ==== Sys2Proof/Laws/State.lean ====
section
/-!
SUPPORT. What the shared updates of the state leave as it stands, one lemma for each field: a later
proof reads a field through an update with `simp` and unfolds no record update.
-/

namespace Sys2Proof.Machine

open Sys2Proof

variable (s : State)

/-! ### `setEngine` -/

@[simp] theorem State.setEngine_timing (e : EngineId) (x : Engine) :
    (s.setEngine e x).timing = s.timing := rfl

@[simp] theorem State.setEngine_lanes (e : EngineId) (x : Engine) :
    (s.setEngine e x).lanes = s.lanes := rfl

@[simp] theorem State.setEngine_receiver (e : EngineId) (x : Engine) :
    (s.setEngine e x).receiver = s.receiver := rfl

@[simp] theorem State.setEngine_waiting (e : EngineId) (x : Engine) :
    (s.setEngine e x).waiting = s.waiting := rfl

@[simp] theorem State.setEngine_tables (e : EngineId) (x : Engine) :
    (s.setEngine e x).tables = s.tables := rfl

@[simp] theorem State.setEngine_matrix (e : EngineId) (x : Engine) :
    (s.setEngine e x).matrix = s.matrix := rfl

@[simp] theorem State.setEngine_engines (e : EngineId) (x : Engine) :
    (s.setEngine e x).engines = s.engines.set e x := rfl

@[simp] theorem State.setEngine_keyers (e : EngineId) (x : Engine) :
    (s.setEngine e x).keyers = s.keyers := rfl

@[simp] theorem State.setEngine_ftb (e : EngineId) (x : Engine) :
    (s.setEngine e x).ftb = s.ftb := rfl

@[simp] theorem State.setEngine_mon (e : EngineId) (x : Engine) :
    (s.setEngine e x).mon = s.mon := rfl

@[simp] theorem State.setEngine_tally (e : EngineId) (x : Engine) :
    (s.setEngine e x).tally = s.tally := rfl

@[simp] theorem State.setEngine_generators (e : EngineId) (x : Engine) :
    (s.setEngine e x).generators = s.generators := rfl

@[simp] theorem State.setEngine_checker (e : EngineId) (x : Engine) :
    (s.setEngine e x).checker = s.checker := rfl

@[simp] theorem State.setEngine_reports (e : EngineId) (x : Engine) :
    (s.setEngine e x).reports = s.reports := rfl

@[simp] theorem State.setEngine_status (e : EngineId) (x : Engine) :
    (s.setEngine e x).status = s.status := rfl

@[simp] theorem State.setEngine_picture (e : EngineId) (x : Engine) :
    (s.setEngine e x).picture = s.picture := rfl

@[simp] theorem State.setEngine_packets (e : EngineId) (x : Engine) :
    (s.setEngine e x).packets = s.packets := rfl

@[simp] theorem State.setEngine_free (e : EngineId) (x : Engine) :
    (s.setEngine e x).free = s.free := rfl

@[simp] theorem State.setEngine_pending (e : EngineId) (x : Engine) :
    (s.setEngine e x).pending = s.pending := rfl

/-! ### `setBus` -/

@[simp] theorem State.setBus_timing (b n : Nat) : (s.setBus b n).timing = s.timing := rfl

@[simp] theorem State.setBus_lanes (b n : Nat) : (s.setBus b n).lanes = s.lanes := rfl

@[simp] theorem State.setBus_receiver (b n : Nat) : (s.setBus b n).receiver = s.receiver := rfl

@[simp] theorem State.setBus_waiting (b n : Nat) : (s.setBus b n).waiting = s.waiting := rfl

@[simp] theorem State.setBus_tables (b n : Nat) : (s.setBus b n).tables = s.tables := rfl

@[simp] theorem State.setBus_matrix (b n : Nat) :
    (s.setBus b n).matrix = { s.matrix with buses := put s.matrix.buses b n } := rfl

@[simp] theorem State.setBus_engines (b n : Nat) : (s.setBus b n).engines = s.engines := rfl

@[simp] theorem State.setBus_keyers (b n : Nat) : (s.setBus b n).keyers = s.keyers := rfl

@[simp] theorem State.setBus_ftb (b n : Nat) : (s.setBus b n).ftb = s.ftb := rfl

@[simp] theorem State.setBus_mon (b n : Nat) : (s.setBus b n).mon = s.mon := rfl

@[simp] theorem State.setBus_tally (b n : Nat) : (s.setBus b n).tally = s.tally := rfl

@[simp] theorem State.setBus_generators (b n : Nat) :
    (s.setBus b n).generators = s.generators := rfl

@[simp] theorem State.setBus_checker (b n : Nat) : (s.setBus b n).checker = s.checker := rfl

@[simp] theorem State.setBus_reports (b n : Nat) : (s.setBus b n).reports = s.reports := rfl

@[simp] theorem State.setBus_status (b n : Nat) : (s.setBus b n).status = s.status := rfl

@[simp] theorem State.setBus_picture (b n : Nat) : (s.setBus b n).picture = s.picture := rfl

@[simp] theorem State.setBus_packets (b n : Nat) : (s.setBus b n).packets = s.packets := rfl

@[simp] theorem State.setBus_free (b n : Nat) : (s.setBus b n).free = s.free := rfl

@[simp] theorem State.setBus_pending (b n : Nat) : (s.setBus b n).pending = s.pending := rfl

/-! ### `postCondition` -/

@[simp] theorem State.postCondition_timing (k : ConditionKind) (n : Nat) (d : Int) :
    (s.postCondition k n d).timing = s.timing := rfl

@[simp] theorem State.postCondition_lanes (k : ConditionKind) (n : Nat) (d : Int) :
    (s.postCondition k n d).lanes = s.lanes := rfl

@[simp] theorem State.postCondition_receiver (k : ConditionKind) (n : Nat) (d : Int) :
    (s.postCondition k n d).receiver = s.receiver := rfl

@[simp] theorem State.postCondition_waiting (k : ConditionKind) (n : Nat) (d : Int) :
    (s.postCondition k n d).waiting = s.waiting := rfl

@[simp] theorem State.postCondition_tables (k : ConditionKind) (n : Nat) (d : Int) :
    (s.postCondition k n d).tables = s.tables := rfl

@[simp] theorem State.postCondition_matrix (k : ConditionKind) (n : Nat) (d : Int) :
    (s.postCondition k n d).matrix = s.matrix := rfl

@[simp] theorem State.postCondition_engines (k : ConditionKind) (n : Nat) (d : Int) :
    (s.postCondition k n d).engines = s.engines := rfl

@[simp] theorem State.postCondition_keyers (k : ConditionKind) (n : Nat) (d : Int) :
    (s.postCondition k n d).keyers = s.keyers := rfl

@[simp] theorem State.postCondition_ftb (k : ConditionKind) (n : Nat) (d : Int) :
    (s.postCondition k n d).ftb = s.ftb := rfl

@[simp] theorem State.postCondition_mon (k : ConditionKind) (n : Nat) (d : Int) :
    (s.postCondition k n d).mon = s.mon := rfl

@[simp] theorem State.postCondition_tally (k : ConditionKind) (n : Nat) (d : Int) :
    (s.postCondition k n d).tally = s.tally := rfl

@[simp] theorem State.postCondition_generators (k : ConditionKind) (n : Nat) (d : Int) :
    (s.postCondition k n d).generators = s.generators := rfl

@[simp] theorem State.postCondition_checker (k : ConditionKind) (n : Nat) (d : Int) :
    (s.postCondition k n d).checker = s.checker := rfl

@[simp] theorem State.postCondition_reports (k : ConditionKind) (n : Nat) (d : Int) :
    (s.postCondition k n d).reports = s.reports.post k n d s.timing.field := rfl

@[simp] theorem State.postCondition_status (k : ConditionKind) (n : Nat) (d : Int) :
    (s.postCondition k n d).status = s.status := rfl

@[simp] theorem State.postCondition_picture (k : ConditionKind) (n : Nat) (d : Int) :
    (s.postCondition k n d).picture = s.picture := rfl

@[simp] theorem State.postCondition_packets (k : ConditionKind) (n : Nat) (d : Int) :
    (s.postCondition k n d).packets = s.packets := rfl

@[simp] theorem State.postCondition_free (k : ConditionKind) (n : Nat) (d : Int) :
    (s.postCondition k n d).free = s.free := rfl

@[simp] theorem State.postCondition_pending (k : ConditionKind) (n : Nat) (d : Int) :
    (s.postCondition k n d).pending = s.pending := rfl

/-! ### `postNotice` -/

@[simp] theorem State.postNotice_timing (tag : Tag) (k : Nat) (r : Reason) (n : Nat) :
    (s.postNotice tag k r n).timing = s.timing := rfl

@[simp] theorem State.postNotice_lanes (tag : Tag) (k : Nat) (r : Reason) (n : Nat) :
    (s.postNotice tag k r n).lanes = s.lanes := rfl

@[simp] theorem State.postNotice_receiver (tag : Tag) (k : Nat) (r : Reason) (n : Nat) :
    (s.postNotice tag k r n).receiver = s.receiver := rfl

@[simp] theorem State.postNotice_waiting (tag : Tag) (k : Nat) (r : Reason) (n : Nat) :
    (s.postNotice tag k r n).waiting = s.waiting := rfl

@[simp] theorem State.postNotice_tables (tag : Tag) (k : Nat) (r : Reason) (n : Nat) :
    (s.postNotice tag k r n).tables = s.tables := rfl

@[simp] theorem State.postNotice_matrix (tag : Tag) (k : Nat) (r : Reason) (n : Nat) :
    (s.postNotice tag k r n).matrix = s.matrix := rfl

@[simp] theorem State.postNotice_engines (tag : Tag) (k : Nat) (r : Reason) (n : Nat) :
    (s.postNotice tag k r n).engines = s.engines := rfl

@[simp] theorem State.postNotice_keyers (tag : Tag) (k : Nat) (r : Reason) (n : Nat) :
    (s.postNotice tag k r n).keyers = s.keyers := rfl

@[simp] theorem State.postNotice_ftb (tag : Tag) (k : Nat) (r : Reason) (n : Nat) :
    (s.postNotice tag k r n).ftb = s.ftb := rfl

@[simp] theorem State.postNotice_mon (tag : Tag) (k : Nat) (r : Reason) (n : Nat) :
    (s.postNotice tag k r n).mon = s.mon := rfl

@[simp] theorem State.postNotice_tally (tag : Tag) (k : Nat) (r : Reason) (n : Nat) :
    (s.postNotice tag k r n).tally = s.tally := rfl

@[simp] theorem State.postNotice_generators (tag : Tag) (k : Nat) (r : Reason) (n : Nat) :
    (s.postNotice tag k r n).generators = s.generators := rfl

@[simp] theorem State.postNotice_checker (tag : Tag) (k : Nat) (r : Reason) (n : Nat) :
    (s.postNotice tag k r n).checker = s.checker := rfl

@[simp] theorem State.postNotice_reports (tag : Tag) (k : Nat) (r : Reason) (n : Nat) :
    (s.postNotice tag k r n).reports = s.reports.notice ⟨tag, k, r, n⟩ s.timing.field := rfl

@[simp] theorem State.postNotice_status (tag : Tag) (k : Nat) (r : Reason) (n : Nat) :
    (s.postNotice tag k r n).status = s.status := rfl

@[simp] theorem State.postNotice_picture (tag : Tag) (k : Nat) (r : Reason) (n : Nat) :
    (s.postNotice tag k r n).picture = s.picture := rfl

@[simp] theorem State.postNotice_packets (tag : Tag) (k : Nat) (r : Reason) (n : Nat) :
    (s.postNotice tag k r n).packets = s.packets := rfl

@[simp] theorem State.postNotice_free (tag : Tag) (k : Nat) (r : Reason) (n : Nat) :
    (s.postNotice tag k r n).free = s.free := rfl

@[simp] theorem State.postNotice_pending (tag : Tag) (k : Nat) (r : Reason) (n : Nat) :
    (s.postNotice tag k r n).pending = s.pending := rfl

/-! ### `setLane` -/

@[simp] theorem State.setLane_timing (n : Nat) (l : Lane) : (s.setLane n l).timing = s.timing := rfl

@[simp] theorem State.setLane_lanes (n : Nat) (l : Lane) :
    (s.setLane n l).lanes = put s.lanes (n - 1) l := rfl

@[simp] theorem State.setLane_waiting (n : Nat) (l : Lane) :
    (s.setLane n l).waiting = s.waiting := rfl

@[simp] theorem State.setLane_tables (n : Nat) (l : Lane) : (s.setLane n l).tables = s.tables := rfl

@[simp] theorem State.setLane_matrix (n : Nat) (l : Lane) : (s.setLane n l).matrix = s.matrix := rfl

@[simp] theorem State.setLane_engines (n : Nat) (l : Lane) :
    (s.setLane n l).engines = s.engines := rfl

@[simp] theorem State.setLane_keyers (n : Nat) (l : Lane) : (s.setLane n l).keyers = s.keyers := rfl

@[simp] theorem State.setLane_ftb (n : Nat) (l : Lane) : (s.setLane n l).ftb = s.ftb := rfl

@[simp] theorem State.setLane_mon (n : Nat) (l : Lane) : (s.setLane n l).mon = s.mon := rfl

@[simp] theorem State.setLane_tally (n : Nat) (l : Lane) : (s.setLane n l).tally = s.tally := rfl

@[simp] theorem State.setLane_generators (n : Nat) (l : Lane) :
    (s.setLane n l).generators = s.generators := rfl

@[simp] theorem State.setLane_checker (n : Nat) (l : Lane) :
    (s.setLane n l).checker = s.checker := rfl

@[simp] theorem State.setLane_reports (n : Nat) (l : Lane) :
    (s.setLane n l).reports = s.reports := rfl

@[simp] theorem State.setLane_status (n : Nat) (l : Lane) : (s.setLane n l).status = s.status := rfl

@[simp] theorem State.setLane_picture (n : Nat) (l : Lane) :
    (s.setLane n l).picture = s.picture := rfl

@[simp] theorem State.setLane_packets (n : Nat) (l : Lane) :
    (s.setLane n l).packets = s.packets := rfl

@[simp] theorem State.setLane_free (n : Nat) (l : Lane) : (s.setLane n l).free = s.free := rfl

@[simp] theorem State.setLane_pending (n : Nat) (l : Lane) :
    (s.setLane n l).pending = s.pending := rfl

/-! ### `complete` -/

@[simp] theorem State.complete_timing (e : EngineId) (r : RunRecord) (b : Bool) :
    (s.complete e r b).timing = s.timing := rfl

@[simp] theorem State.complete_lanes (e : EngineId) (r : RunRecord) (b : Bool) :
    (s.complete e r b).lanes = s.lanes := rfl

@[simp] theorem State.complete_receiver (e : EngineId) (r : RunRecord) (b : Bool) :
    (s.complete e r b).receiver = s.receiver := rfl

@[simp] theorem State.complete_waiting (e : EngineId) (r : RunRecord) (b : Bool) :
    (s.complete e r b).waiting = s.waiting := rfl

@[simp] theorem State.complete_tables (e : EngineId) (r : RunRecord) (b : Bool) :
    (s.complete e r b).tables = s.tables := rfl

@[simp] theorem State.complete_matrix (e : EngineId) (r : RunRecord) (b : Bool) :
    (s.complete e r b).matrix = if r.elements.bkgd then s.matrix.recordCompletion e else s.matrix := rfl

@[simp] theorem State.complete_engines (e : EngineId) (r : RunRecord) (b : Bool) :
    (s.complete e r b).engines =
      s.engines.set e
        { (s.engine e).toIdle with lever := (s.engine e).lever.afterCompletion b } := rfl

@[simp] theorem State.complete_keyers (e : EngineId) (r : RunRecord) (b : Bool) :
    (s.complete e r b).keyers = toggleKeys s.keyers r.elements.keys := rfl

@[simp] theorem State.complete_ftb (e : EngineId) (r : RunRecord) (b : Bool) :
    (s.complete e r b).ftb = s.ftb.afterCompletion r.elements.fade := rfl

@[simp] theorem State.complete_mon (e : EngineId) (r : RunRecord) (b : Bool) :
    (s.complete e r b).mon = s.mon := rfl

@[simp] theorem State.complete_tally (e : EngineId) (r : RunRecord) (b : Bool) :
    (s.complete e r b).tally = s.tally := rfl

@[simp] theorem State.complete_generators (e : EngineId) (r : RunRecord) (b : Bool) :
    (s.complete e r b).generators = s.generators := rfl

@[simp] theorem State.complete_checker (e : EngineId) (r : RunRecord) (b : Bool) :
    (s.complete e r b).checker = s.checker := rfl

@[simp] theorem State.complete_reports (e : EngineId) (r : RunRecord) (b : Bool) :
    (s.complete e r b).reports = s.reports := rfl

@[simp] theorem State.complete_status (e : EngineId) (r : RunRecord) (b : Bool) :
    (s.complete e r b).status = s.status := rfl

@[simp] theorem State.complete_picture (e : EngineId) (r : RunRecord) (b : Bool) :
    (s.complete e r b).picture = s.picture := rfl

@[simp] theorem State.complete_packets (e : EngineId) (r : RunRecord) (b : Bool) :
    (s.complete e r b).packets = s.packets := rfl

@[simp] theorem State.complete_free (e : EngineId) (r : RunRecord) (b : Bool) :
    (s.complete e r b).free = s.free := rfl

@[simp] theorem State.complete_pending (e : EngineId) (r : RunRecord) (b : Bool) :
    (s.complete e r b).pending = s.pending := rfl

/-! ### `reseekLanes` -/

@[simp] theorem State.reseekLanes_timing (p : Nat → Bool) (b : Bool) :
    (s.reseekLanes p b).timing = s.timing := rfl

@[simp] theorem State.reseekLanes_lanes (p : Nat → Bool) (b : Bool) :
    (s.reseekLanes p b).lanes = changeAll (fun i l => if p (i + 1) then l.reseek b else l) s.lanes := rfl

@[simp] theorem State.reseekLanes_receiver (p : Nat → Bool) (b : Bool) :
    (s.reseekLanes p b).receiver =
      if p laneC then { s.receiver with inReception := none } else s.receiver := rfl

@[simp] theorem State.reseekLanes_waiting (p : Nat → Bool) (b : Bool) :
    (s.reseekLanes p b).waiting = s.waiting := rfl

@[simp] theorem State.reseekLanes_tables (p : Nat → Bool) (b : Bool) :
    (s.reseekLanes p b).tables = s.tables := rfl

@[simp] theorem State.reseekLanes_matrix (p : Nat → Bool) (b : Bool) :
    (s.reseekLanes p b).matrix = s.matrix := rfl

@[simp] theorem State.reseekLanes_engines (p : Nat → Bool) (b : Bool) :
    (s.reseekLanes p b).engines = s.engines := rfl

@[simp] theorem State.reseekLanes_keyers (p : Nat → Bool) (b : Bool) :
    (s.reseekLanes p b).keyers = s.keyers := rfl

@[simp] theorem State.reseekLanes_ftb (p : Nat → Bool) (b : Bool) :
    (s.reseekLanes p b).ftb = s.ftb := rfl

@[simp] theorem State.reseekLanes_mon (p : Nat → Bool) (b : Bool) :
    (s.reseekLanes p b).mon = s.mon := rfl

@[simp] theorem State.reseekLanes_tally (p : Nat → Bool) (b : Bool) :
    (s.reseekLanes p b).tally = s.tally := rfl

@[simp] theorem State.reseekLanes_generators (p : Nat → Bool) (b : Bool) :
    (s.reseekLanes p b).generators = s.generators := rfl

@[simp] theorem State.reseekLanes_checker (p : Nat → Bool) (b : Bool) :
    (s.reseekLanes p b).checker = s.checker := rfl

@[simp] theorem State.reseekLanes_reports (p : Nat → Bool) (b : Bool) :
    (s.reseekLanes p b).reports = s.reports := rfl

@[simp] theorem State.reseekLanes_status (p : Nat → Bool) (b : Bool) :
    (s.reseekLanes p b).status = s.status := rfl

@[simp] theorem State.reseekLanes_picture (p : Nat → Bool) (b : Bool) :
    (s.reseekLanes p b).picture = s.picture := rfl

@[simp] theorem State.reseekLanes_packets (p : Nat → Bool) (b : Bool) :
    (s.reseekLanes p b).packets = s.packets := rfl

@[simp] theorem State.reseekLanes_free (p : Nat → Bool) (b : Bool) :
    (s.reseekLanes p b).free = s.free := rfl

@[simp] theorem State.reseekLanes_pending (p : Nat → Bool) (b : Bool) :
    (s.reseekLanes p b).pending = s.pending := rfl

/-! ### `decideLanes` -/

@[simp] theorem State.decideLanes_timing : (s.decideLanes).timing = s.timing := rfl

@[simp] theorem State.decideLanes_lanes :
    (s.decideLanes).lanes = changeAll (fun _ l => l.decide) s.lanes := rfl

@[simp] theorem State.decideLanes_receiver : (s.decideLanes).receiver = s.receiver := rfl

@[simp] theorem State.decideLanes_waiting : (s.decideLanes).waiting = s.waiting := rfl

@[simp] theorem State.decideLanes_tables : (s.decideLanes).tables = s.tables := rfl

@[simp] theorem State.decideLanes_matrix : (s.decideLanes).matrix = s.matrix := rfl

@[simp] theorem State.decideLanes_engines : (s.decideLanes).engines = s.engines := rfl

@[simp] theorem State.decideLanes_keyers : (s.decideLanes).keyers = s.keyers := rfl

@[simp] theorem State.decideLanes_ftb : (s.decideLanes).ftb = s.ftb := rfl

@[simp] theorem State.decideLanes_mon : (s.decideLanes).mon = s.mon := rfl

@[simp] theorem State.decideLanes_tally : (s.decideLanes).tally = s.tally := rfl

@[simp] theorem State.decideLanes_generators : (s.decideLanes).generators = s.generators := rfl

@[simp] theorem State.decideLanes_checker : (s.decideLanes).checker = s.checker := rfl

@[simp] theorem State.decideLanes_reports : (s.decideLanes).reports = s.reports := rfl

@[simp] theorem State.decideLanes_status : (s.decideLanes).status = s.status := rfl

@[simp] theorem State.decideLanes_picture : (s.decideLanes).picture = s.picture := rfl

@[simp] theorem State.decideLanes_packets : (s.decideLanes).packets = s.packets := rfl

@[simp] theorem State.decideLanes_free : (s.decideLanes).free = s.free := rfl

@[simp] theorem State.decideLanes_pending : (s.decideLanes).pending = s.pending := rfl

/-! ### `takePicture` -/

@[simp] theorem State.takePicture_timing : (s.takePicture).timing = s.timing := rfl

@[simp] theorem State.takePicture_lanes : (s.takePicture).lanes = s.lanes := rfl

@[simp] theorem State.takePicture_receiver : (s.takePicture).receiver = s.receiver := rfl

@[simp] theorem State.takePicture_waiting : (s.takePicture).waiting = s.waiting := rfl

@[simp] theorem State.takePicture_tables : (s.takePicture).tables = s.tables := rfl

@[simp] theorem State.takePicture_matrix : (s.takePicture).matrix = s.matrix := rfl

@[simp] theorem State.takePicture_engines : (s.takePicture).engines = s.engines := rfl

@[simp] theorem State.takePicture_keyers : (s.takePicture).keyers = s.keyers := rfl

@[simp] theorem State.takePicture_ftb : (s.takePicture).ftb = s.ftb := rfl

@[simp] theorem State.takePicture_mon : (s.takePicture).mon = s.mon := rfl

@[simp] theorem State.takePicture_tally : (s.takePicture).tally = s.tally := rfl

@[simp] theorem State.takePicture_generators : (s.takePicture).generators = s.generators := rfl

@[simp] theorem State.takePicture_checker : (s.takePicture).checker = s.checker := rfl

@[simp] theorem State.takePicture_reports : (s.takePicture).reports = s.reports := rfl

@[simp] theorem State.takePicture_status : (s.takePicture).status = s.status := rfl

@[simp] theorem State.takePicture_packets : (s.takePicture).packets = s.packets := rfl

@[simp] theorem State.takePicture_free : (s.takePicture).free = s.free := rfl

@[simp] theorem State.takePicture_pending : (s.takePicture).pending = s.pending := rfl

/-! ### `asShown` -/

@[simp] theorem State.asShown_timing : (s.asShown).timing = s.timing := rfl

@[simp] theorem State.asShown_receiver : (s.asShown).receiver = s.receiver := rfl

@[simp] theorem State.asShown_waiting : (s.asShown).waiting = s.waiting := rfl

@[simp] theorem State.asShown_tally : (s.asShown).tally = s.tally := rfl

@[simp] theorem State.asShown_checker : (s.asShown).checker = s.checker := rfl

@[simp] theorem State.asShown_reports : (s.asShown).reports = s.reports := rfl

@[simp] theorem State.asShown_status : (s.asShown).status = s.status := rfl

@[simp] theorem State.asShown_picture : (s.asShown).picture = s.picture := rfl

@[simp] theorem State.asShown_packets : (s.asShown).packets = s.packets := rfl

@[simp] theorem State.asShown_free : (s.asShown).free = s.free := rfl

@[simp] theorem State.asShown_pending : (s.asShown).pending = s.pending := rfl

/-! ### `noticeIf` and `postConditions`: only the reports change -/

@[simp] theorem State.noticeIf_timing (b : Bool) (tag : Tag) (c : Command) (r : Reason) :
    (s.noticeIf b tag c r).timing = s.timing := by cases b <;> rfl

@[simp] theorem State.noticeIf_lanes (b : Bool) (tag : Tag) (c : Command) (r : Reason) :
    (s.noticeIf b tag c r).lanes = s.lanes := by cases b <;> rfl

@[simp] theorem State.noticeIf_receiver (b : Bool) (tag : Tag) (c : Command) (r : Reason) :
    (s.noticeIf b tag c r).receiver = s.receiver := by cases b <;> rfl

@[simp] theorem State.noticeIf_waiting (b : Bool) (tag : Tag) (c : Command) (r : Reason) :
    (s.noticeIf b tag c r).waiting = s.waiting := by cases b <;> rfl

@[simp] theorem State.noticeIf_tables (b : Bool) (tag : Tag) (c : Command) (r : Reason) :
    (s.noticeIf b tag c r).tables = s.tables := by cases b <;> rfl

@[simp] theorem State.noticeIf_matrix (b : Bool) (tag : Tag) (c : Command) (r : Reason) :
    (s.noticeIf b tag c r).matrix = s.matrix := by cases b <;> rfl

@[simp] theorem State.noticeIf_engines (b : Bool) (tag : Tag) (c : Command) (r : Reason) :
    (s.noticeIf b tag c r).engines = s.engines := by cases b <;> rfl

@[simp] theorem State.noticeIf_keyers (b : Bool) (tag : Tag) (c : Command) (r : Reason) :
    (s.noticeIf b tag c r).keyers = s.keyers := by cases b <;> rfl

@[simp] theorem State.noticeIf_ftb (b : Bool) (tag : Tag) (c : Command) (r : Reason) :
    (s.noticeIf b tag c r).ftb = s.ftb := by cases b <;> rfl

@[simp] theorem State.noticeIf_mon (b : Bool) (tag : Tag) (c : Command) (r : Reason) :
    (s.noticeIf b tag c r).mon = s.mon := by cases b <;> rfl

@[simp] theorem State.noticeIf_tally (b : Bool) (tag : Tag) (c : Command) (r : Reason) :
    (s.noticeIf b tag c r).tally = s.tally := by cases b <;> rfl

@[simp] theorem State.noticeIf_generators (b : Bool) (tag : Tag) (c : Command) (r : Reason) :
    (s.noticeIf b tag c r).generators = s.generators := by cases b <;> rfl

@[simp] theorem State.noticeIf_checker (b : Bool) (tag : Tag) (c : Command) (r : Reason) :
    (s.noticeIf b tag c r).checker = s.checker := by cases b <;> rfl

@[simp] theorem State.noticeIf_status (b : Bool) (tag : Tag) (c : Command) (r : Reason) :
    (s.noticeIf b tag c r).status = s.status := by cases b <;> rfl

@[simp] theorem State.noticeIf_picture (b : Bool) (tag : Tag) (c : Command) (r : Reason) :
    (s.noticeIf b tag c r).picture = s.picture := by cases b <;> rfl

@[simp] theorem State.noticeIf_packets (b : Bool) (tag : Tag) (c : Command) (r : Reason) :
    (s.noticeIf b tag c r).packets = s.packets := by cases b <;> rfl

@[simp] theorem State.noticeIf_free (b : Bool) (tag : Tag) (c : Command) (r : Reason) :
    (s.noticeIf b tag c r).free = s.free := by cases b <;> rfl

@[simp] theorem State.noticeIf_pending (b : Bool) (tag : Tag) (c : Command) (r : Reason) :
    (s.noticeIf b tag c r).pending = s.pending := by cases b <;> rfl

@[simp] theorem State.postConditions_timing (n : Nat) (ps : List (ConditionKind × Int)) :
    (s.postConditions n ps).timing = s.timing := by
  induction ps generalizing s with
  | nil => rfl
  | cons p ps ih => exact (ih (s.postCondition p.1 n p.2)).trans rfl

@[simp] theorem State.postConditions_lanes (n : Nat) (ps : List (ConditionKind × Int)) :
    (s.postConditions n ps).lanes = s.lanes := by
  induction ps generalizing s with
  | nil => rfl
  | cons p ps ih => exact (ih (s.postCondition p.1 n p.2)).trans rfl

@[simp] theorem State.postConditions_receiver (n : Nat) (ps : List (ConditionKind × Int)) :
    (s.postConditions n ps).receiver = s.receiver := by
  induction ps generalizing s with
  | nil => rfl
  | cons p ps ih => exact (ih (s.postCondition p.1 n p.2)).trans rfl

@[simp] theorem State.postConditions_waiting (n : Nat) (ps : List (ConditionKind × Int)) :
    (s.postConditions n ps).waiting = s.waiting := by
  induction ps generalizing s with
  | nil => rfl
  | cons p ps ih => exact (ih (s.postCondition p.1 n p.2)).trans rfl

@[simp] theorem State.postConditions_tables (n : Nat) (ps : List (ConditionKind × Int)) :
    (s.postConditions n ps).tables = s.tables := by
  induction ps generalizing s with
  | nil => rfl
  | cons p ps ih => exact (ih (s.postCondition p.1 n p.2)).trans rfl

@[simp] theorem State.postConditions_matrix (n : Nat) (ps : List (ConditionKind × Int)) :
    (s.postConditions n ps).matrix = s.matrix := by
  induction ps generalizing s with
  | nil => rfl
  | cons p ps ih => exact (ih (s.postCondition p.1 n p.2)).trans rfl

@[simp] theorem State.postConditions_engines (n : Nat) (ps : List (ConditionKind × Int)) :
    (s.postConditions n ps).engines = s.engines := by
  induction ps generalizing s with
  | nil => rfl
  | cons p ps ih => exact (ih (s.postCondition p.1 n p.2)).trans rfl

@[simp] theorem State.postConditions_keyers (n : Nat) (ps : List (ConditionKind × Int)) :
    (s.postConditions n ps).keyers = s.keyers := by
  induction ps generalizing s with
  | nil => rfl
  | cons p ps ih => exact (ih (s.postCondition p.1 n p.2)).trans rfl

@[simp] theorem State.postConditions_ftb (n : Nat) (ps : List (ConditionKind × Int)) :
    (s.postConditions n ps).ftb = s.ftb := by
  induction ps generalizing s with
  | nil => rfl
  | cons p ps ih => exact (ih (s.postCondition p.1 n p.2)).trans rfl

@[simp] theorem State.postConditions_mon (n : Nat) (ps : List (ConditionKind × Int)) :
    (s.postConditions n ps).mon = s.mon := by
  induction ps generalizing s with
  | nil => rfl
  | cons p ps ih => exact (ih (s.postCondition p.1 n p.2)).trans rfl

@[simp] theorem State.postConditions_tally (n : Nat) (ps : List (ConditionKind × Int)) :
    (s.postConditions n ps).tally = s.tally := by
  induction ps generalizing s with
  | nil => rfl
  | cons p ps ih => exact (ih (s.postCondition p.1 n p.2)).trans rfl

@[simp] theorem State.postConditions_generators (n : Nat) (ps : List (ConditionKind × Int)) :
    (s.postConditions n ps).generators = s.generators := by
  induction ps generalizing s with
  | nil => rfl
  | cons p ps ih => exact (ih (s.postCondition p.1 n p.2)).trans rfl

@[simp] theorem State.postConditions_checker (n : Nat) (ps : List (ConditionKind × Int)) :
    (s.postConditions n ps).checker = s.checker := by
  induction ps generalizing s with
  | nil => rfl
  | cons p ps ih => exact (ih (s.postCondition p.1 n p.2)).trans rfl

@[simp] theorem State.postConditions_status (n : Nat) (ps : List (ConditionKind × Int)) :
    (s.postConditions n ps).status = s.status := by
  induction ps generalizing s with
  | nil => rfl
  | cons p ps ih => exact (ih (s.postCondition p.1 n p.2)).trans rfl

@[simp] theorem State.postConditions_picture (n : Nat) (ps : List (ConditionKind × Int)) :
    (s.postConditions n ps).picture = s.picture := by
  induction ps generalizing s with
  | nil => rfl
  | cons p ps ih => exact (ih (s.postCondition p.1 n p.2)).trans rfl

@[simp] theorem State.postConditions_packets (n : Nat) (ps : List (ConditionKind × Int)) :
    (s.postConditions n ps).packets = s.packets := by
  induction ps generalizing s with
  | nil => rfl
  | cons p ps ih => exact (ih (s.postCondition p.1 n p.2)).trans rfl

@[simp] theorem State.postConditions_free (n : Nat) (ps : List (ConditionKind × Int)) :
    (s.postConditions n ps).free = s.free := by
  induction ps generalizing s with
  | nil => rfl
  | cons p ps ih => exact (ih (s.postCondition p.1 n p.2)).trans rfl

@[simp] theorem State.postConditions_pending (n : Nat) (ps : List (ConditionKind × Int)) :
    (s.postConditions n ps).pending = s.pending := by
  induction ps generalizing s with
  | nil => rfl
  | cons p ps ih => exact (ih (s.postCondition p.1 n p.2)).trans rfl

@[simp] theorem State.postConditions_nil (s : State) (n : Nat) : s.postConditions n [] = s := rfl

@[simp] theorem State.postConditions_one (s : State) (n : Nat) (k : ConditionKind) (d : Int) :
    s.postConditions n [(k, d)] = s.postCondition k n d := rfl

end Sys2Proof.Machine
end

