-- ==== Sys2Proof/Laws/Ops.lean ====
section
/-!
SUPPORT. Reading after writing: what a numbered record, an engine, a lane and a bus hold after a write to
one of them, and what a posting does to the Report Builder's lists.
-/

namespace Sys2Proof.Machine

open Sys2Proof

/-! ### Numbered records -/

section
variable {α : Type} {n : Nat}

theorem look_of_lt (v : Vector α n) {i : Nat} (h : i < n) (d : α) : look v i d = v[i] := by
  simp [look, h]

theorem look_of_le (v : Vector α n) {i : Nat} (h : n ≤ i) (d : α) : look v i d = d := by
  simp [look, h]

/-- The whole of what `put` does, seen through `look`. -/
theorem look_put (v : Vector α n) (i j : Nat) (x d : α) :
    look (put v i x) j d = if i = j ∧ j < n then x else look v j d := by
  by_cases hj : j < n
  · by_cases hij : i = j
    · subst hij; simp [look, put, hj]
    · simp [look, put, hj, hij, Vector.getElem_setIfInBounds_ne]
  · simp [look, hj]

theorem look_put_same (v : Vector α n) {i : Nat} (h : i < n) (x d : α) : look (put v i x) i d = x := by
  simp [look_put, h]

theorem look_put_ne (v : Vector α n) {i j : Nat} (h : i ≠ j) (x d : α) :
    look (put v i x) j d = look v j d := by
  simp [look_put, h]

/-- The whole of what `changeAll` does, seen through `look`. -/
theorem look_changeAll (f : Nat → α → α) (v : Vector α n) (i : Nat) (d : α) :
    look (changeAll f v) i d = if i < n then f i (look v i d) else d := by
  by_cases h : i < n
  · rw [look_of_lt _ h, look_of_lt _ h]
    simp [changeAll, h]
  · simp [look, h]

/-- Two tables that read the same under every number are equal. -/
theorem ext_look {v w : Vector α n} (d : α) (h : ∀ i, i < n → look v i d = look w i d) : v = w := by
  ext i hi
  have := h i hi
  rwa [look_of_lt _ hi, look_of_lt _ hi] at this

end

/-! ### Engines -/

@[simp] theorem Engines.get_set_same (es : Engines) (e : EngineId) (x : Engine) :
    (es.set e x).get e = x := by
  cases e <;> rfl

theorem Engines.get_set_ne (es : Engines) {e f : EngineId} (h : e ≠ f) (x : Engine) :
    (es.set e x).get f = es.get f := by
  cases e <;> cases f <;> first | rfl | exact absurd rfl h

/-- The whole of what a write to one engine does, seen through `get`. -/
theorem Engines.get_set (es : Engines) (e f : EngineId) (x : Engine) :
    (es.set e x).get f = if e = f then x else es.get f := by
  by_cases h : e = f
  · subst h; simp
  · simp [h, Engines.get_set_ne es h]

@[simp] theorem Engines.set_get (es : Engines) (e : EngineId) : es.set e (es.get e) = es := by
  cases e <;> rfl

/-- Two sets of engines that agree in every engine are equal. -/
theorem Engines.ext_get {a b : Engines} (h : ∀ e, a.get e = b.get e) : a = b := by
  obtain ⟨a0, a1, a2, a3, a4⟩ := a
  obtain ⟨b0, b1, b2, b3, b4⟩ := b
  have h0 : a0 = b0 := h .me1
  have h1 : a1 = b1 := h .me2
  have h2 : a2 = b2 := h .dsk1
  have h3 : a3 = b3 := h .dsk2
  have h4 : a4 = b4 := h .ftb
  rw [h0, h1, h2, h3, h4]

theorem State.engine_setEngine (s : State) (e f : EngineId) (x : Engine) :
    (s.setEngine e x).engine f = if e = f then x else s.engine f :=
  Engines.get_set s.engines e f x

@[simp] theorem State.engine_setEngine_same (s : State) (e : EngineId) (x : Engine) :
    (s.setEngine e x).engine e = x := by
  simp [State.engine_setEngine]

theorem State.engine_setEngine_ne (s : State) {e f : EngineId} (h : e ≠ f) (x : Engine) :
    (s.setEngine e x).engine f = s.engine f := by
  simp [State.engine_setEngine, h]

/-- The engines after a completion. -/
theorem State.engine_complete (s : State) (e f : EngineId) (r : RunRecord) (b : Bool) :
    (s.complete e r b).engine f =
      if e = f then { (s.engine e).toIdle with lever := (s.engine e).lever.afterCompletion b }
      else s.engine f :=
  Engines.get_set s.engines e f _

@[simp] theorem EngineId.mem_all (e : EngineId) : e ∈ EngineId.all := by cases e <;> decide

theorem EngineId.all_nodup : EngineId.all.Nodup := by decide

/-! ### Lanes, buses, keyers -/

/-- The lanes after a write to one of them. -/
theorem State.lane_setLane (s : State) {n m : Nat} (hn : isLane n = true) (hm : isLane m = true)
    (l : Lane) : (s.setLane n l).lane m = if n = m then l else s.lane m := by
  simp only [isLane, Bool.and_eq_true, decide_eq_true_eq] at hn hm
  simp only [State.lane, State.setLane_lanes, look_put]
  have h : (n - 1 = m - 1 ∧ m - 1 < 25) ↔ n = m := by omega
  simp only [h]

@[simp] theorem State.lane_setLane_same (s : State) {n : Nat} (hn : isLane n = true) (l : Lane) :
    (s.setLane n l).lane n = l := by
  simp [State.lane_setLane s hn hn]

theorem State.lane_setLane_ne (s : State) {n m : Nat} (hn : isLane n = true) (hm : isLane m = true)
    (h : n ≠ m) (l : Lane) : (s.setLane n l).lane m = s.lane m := by
  simp [State.lane_setLane s hn hm, h]

/-- The lanes after those named go to SEEK. -/
theorem State.lane_reseekLanes (s : State) (p : Nat → Bool) (b : Bool) {n : Nat}
    (hn : isLane n = true) :
    (s.reseekLanes p b).lane n = if p n then (s.lane n).reseek b else s.lane n := by
  simp only [isLane, Bool.and_eq_true, decide_eq_true_eq] at hn
  have h : n - 1 < 25 := by omega
  have h' : n - 1 + 1 = n := by omega
  simp [State.lane, look_changeAll, h, h']

/-- The lanes after the delivery decisions. -/
theorem State.lane_decideLanes (s : State) {n : Nat} (hn : isLane n = true) :
    s.decideLanes.lane n = (s.lane n).decide := by
  simp only [isLane, Bool.and_eq_true, decide_eq_true_eq] at hn
  have h : n - 1 < 25 := by omega
  simp [State.lane, look_changeAll, h]

/-- The buses after a SELECT takes effect. -/
theorem State.bus_setBus (s : State) (b c n : Nat) :
    (s.setBus b n).bus c = if b = c ∧ c < 20 then n else s.bus c := by
  simp [State.bus, look_put]

/-! ### Conditions and notices -/

/-- The whole of what a posting does (R177). -/
theorem Reports.post_cases (r : Reports) (k : ConditionKind) (n : Nat) (d : Int) (f : FieldNo) :
    (r.conditions.any (·.isFor k n) = true ∧
      r.post k n d f =
        { r with
          conditions := r.conditions.map fun c =>
            if c.isFor k n then { c with last := f, detail := d, count := min 255 (c.count + 1) }
            else c }) ∨
    (r.conditions.any (·.isFor k n) = false ∧ r.conditions.length < 32 ∧
      r.post k n d f = { r with conditions := r.conditions ++ [⟨k, n, f, f, 1, d⟩] }) ∨
    (r.conditions.any (·.isFor k n) = false ∧ 32 ≤ r.conditions.length ∧
      r.post k n d f = { r with listFull := true }) := by
  unfold Reports.post
  by_cases h : r.conditions.any (·.isFor k n) = true
  · exact .inl ⟨h, if_pos h⟩
  · rw [if_neg h]
    rw [Bool.not_eq_true] at h
    by_cases hl : r.conditions.length < 32
    · exact .inr (.inl ⟨h, hl, if_pos hl⟩)
    · exact .inr (.inr ⟨h, by omega, if_neg hl⟩)

section
variable (r : Reports) (k : ConditionKind) (n : Nat) (d : Int) (f : FieldNo)

/-- A posting leaves the notices as they stand. -/
@[simp] theorem Reports.post_notices : (r.post k n d f).notices = r.notices := by
  obtain ⟨-, h⟩ | ⟨-, -, h⟩ | ⟨-, -, h⟩ := r.post_cases k n d f <;> rw [h]

@[simp] theorem Reports.post_overflow : (r.post k n d f).overflow = r.overflow := by
  obtain ⟨-, h⟩ | ⟨-, -, h⟩ | ⟨-, -, h⟩ := r.post_cases k n d f <;> rw [h]

@[simp] theorem Reports.post_enables : (r.post k n d f).enables = r.enables := by
  obtain ⟨-, h⟩ | ⟨-, -, h⟩ | ⟨-, -, h⟩ := r.post_cases k n d f <;> rw [h]

@[simp] theorem Reports.post_mask : (r.post k n d f).mask = r.mask := by
  obtain ⟨-, h⟩ | ⟨-, -, h⟩ | ⟨-, -, h⟩ := r.post_cases k n d f <;> rw [h]

@[simp] theorem Reports.post_cause : (r.post k n d f).cause = r.cause := by
  obtain ⟨-, h⟩ | ⟨-, -, h⟩ | ⟨-, -, h⟩ := r.post_cases k n d f <;> rw [h]

end

/-- The whole of what a notice does (R176). -/
theorem Reports.notice_cases (r : Reports) (x : Notice) (f : FieldNo) :
    (r.notices.length < 8 ∧ r.notice x f = { r with notices := r.notices ++ [x] }) ∨
    (8 ≤ r.notices.length ∧ r.overflow = 0 ∧
      r.notice x f = { r with overflow := 1 }.post .noticeOverflow 0 0 f) ∨
    (8 ≤ r.notices.length ∧ r.overflow ≠ 0 ∧
      r.notice x f = { r with overflow := min 255 (r.overflow + 1) }) := by
  unfold Reports.notice
  by_cases h : r.notices.length < 8
  · exact .inl ⟨h, if_pos h⟩
  · rw [if_neg h]
    by_cases ho : r.overflow = 0
    · exact .inr (.inl ⟨by omega, ho, by simp [ho]⟩)
    · exact .inr (.inr ⟨by omega, ho, by simp [ho]⟩)

section
variable (r : Reports) (x : Notice) (f : FieldNo)

/-- A notice leaves the enables, the mask and the reset cause as they stand. -/
@[simp] theorem Reports.notice_enables : (r.notice x f).enables = r.enables := by
  obtain ⟨-, h⟩ | ⟨-, -, h⟩ | ⟨-, -, h⟩ := r.notice_cases x f <;> simp [h]

@[simp] theorem Reports.notice_mask : (r.notice x f).mask = r.mask := by
  obtain ⟨-, h⟩ | ⟨-, -, h⟩ | ⟨-, -, h⟩ := r.notice_cases x f <;> simp [h]

@[simp] theorem Reports.notice_cause : (r.notice x f).cause = r.cause := by
  obtain ⟨-, h⟩ | ⟨-, -, h⟩ | ⟨-, -, h⟩ := r.notice_cases x f <;> simp [h]

end

end Sys2Proof.Machine
end

