-- ==== Sys2Proof/Laws/Engines.lean ====
section
/-!
SUPPORT. What the transition engines may touch (chapter 5), said once: TAKE, CUT, HOLD, RESUME, RELEASE,
LEVER and the AUTO step change the engines, the on-air flags, the FTB state, the exchange counts and the
Report Builder's lists, and nothing else.
-/

namespace Sys2Proof.Machine

open Sys2Proof

/-- `t` is `s` but for the engines, the on-air flags, the FTB state, the exchange counts and the reports. -/
structure State.EnginesOnly (s t : State) : Prop where
  frame : t =
    { s with
      engines := t.engines, matrix := t.matrix, keyers := t.keyers, ftb := t.ftb
      reports := t.reports }
  buses : t.matrix.buses = s.matrix.buses
  bypass : t.matrix.bypass = s.matrix.bypass
  staged : t.matrix.staged = s.matrix.staged

namespace State.EnginesOnly

variable {s t u : State}

theorem refl (s : State) : s.EnginesOnly s := ⟨rfl, rfl, rfl, rfl⟩

theorem trans (h : s.EnginesOnly t) (h' : t.EnginesOnly u) : s.EnginesOnly u where
  frame := by rw [h'.frame, h.frame]
  buses := h'.buses.trans h.buses
  bypass := h'.bypass.trans h.bypass
  staged := h'.staged.trans h.staged

theorem timing (h : s.EnginesOnly t) : t.timing = s.timing := by rw [h.frame]
theorem lanes (h : s.EnginesOnly t) : t.lanes = s.lanes := by rw [h.frame]
theorem receiver (h : s.EnginesOnly t) : t.receiver = s.receiver := by rw [h.frame]
theorem waiting (h : s.EnginesOnly t) : t.waiting = s.waiting := by rw [h.frame]
theorem tables (h : s.EnginesOnly t) : t.tables = s.tables := by rw [h.frame]
theorem mon (h : s.EnginesOnly t) : t.mon = s.mon := by rw [h.frame]
theorem tally (h : s.EnginesOnly t) : t.tally = s.tally := by rw [h.frame]
theorem generators (h : s.EnginesOnly t) : t.generators = s.generators := by rw [h.frame]
theorem checker (h : s.EnginesOnly t) : t.checker = s.checker := by rw [h.frame]
theorem status (h : s.EnginesOnly t) : t.status = s.status := by rw [h.frame]
theorem picture (h : s.EnginesOnly t) : t.picture = s.picture := by rw [h.frame]
theorem packets (h : s.EnginesOnly t) : t.packets = s.packets := by rw [h.frame]
theorem free (h : s.EnginesOnly t) : t.free = s.free := by rw [h.frame]
theorem pending (h : s.EnginesOnly t) : t.pending = s.pending := by rw [h.frame]

end State.EnginesOnly

theorem Matrix.recordCompletion_buses (m : Matrix) (e : EngineId) :
    (m.recordCompletion e).buses = m.buses := by cases e <;> rfl

theorem Matrix.recordCompletion_bypass (m : Matrix) (e : EngineId) :
    (m.recordCompletion e).bypass = m.bypass := by cases e <;> rfl

theorem Matrix.recordCompletion_staged (m : Matrix) (e : EngineId) :
    (m.recordCompletion e).staged = m.staged := by cases e <;> rfl

section
variable (s : State) (tag : Tag) (e : EngineId)

theorem State.setEngine_only (x : Engine) : s.EnginesOnly (s.setEngine e x) := ⟨rfl, rfl, rfl, rfl⟩

theorem State.postNotice_only (k : Nat) (r : Reason) (n : Nat) :
    s.EnginesOnly (s.postNotice tag k r n) := ⟨rfl, rfl, rfl, rfl⟩

theorem State.complete_only (r : RunRecord) (b : Bool) : s.EnginesOnly (s.complete e r b) := by
  refine ⟨rfl, ?_, ?_, ?_⟩ <;>
    simp only [State.complete_matrix] <;> split <;>
    simp [Matrix.recordCompletion_buses, Matrix.recordCompletion_bypass,
      Matrix.recordCompletion_staged]

theorem State.takeOne_only : s.EnginesOnly (State.takeOne tag s e) := by
  unfold State.takeOne
  split
  · split
    · exact s.postNotice_only tag _ _ _
    · split
      · exact s.complete_only e _ _
      · exact s.setEngine_only e _
  all_goals exact s.postNotice_only tag _ _ _

theorem State.cutOne_only : s.EnginesOnly (State.cutOne tag s e) := by
  unfold State.cutOne
  split
  · split
    · exact s.postNotice_only tag _ _ _
    · exact s.complete_only e _ _
  all_goals
    split
    · exact s.complete_only e _ _
    · exact .refl s

theorem State.holdOne_only : s.EnginesOnly (State.holdOne tag s e) := by
  unfold State.holdOne
  split
  · exact s.setEngine_only e _
  all_goals exact s.postNotice_only tag _ _ _

theorem State.resumeOne_only : s.EnginesOnly (State.resumeOne tag s e) := by
  unfold State.resumeOne
  split
  · exact s.setEngine_only e _
  all_goals exact s.postNotice_only tag _ _ _

theorem State.stepEngine_only : s.EnginesOnly (s.stepEngine e) := by
  simp only [State.stepEngine]
  split
  · split
    · exact s.complete_only e _ _
    · exact s.setEngine_only e _
  · exact .refl s

theorem State.leverIdle_only (l : LeverRecord) : s.EnginesOnly (s.leverIdle tag e l) := by
  simp only [State.leverIdle]
  split
  · exact s.setEngine_only e _
  split
  · exact s.setEngine_only e _
  split
  · exact s.postNotice_only tag _ _ _
  split
  · exact (s.setEngine_only e _).trans (State.complete_only _ e _ _)
  · exact s.setEngine_only e _

theorem State.leverRunning_only (r : RunRecord) (l : LeverRecord) :
    s.EnginesOnly (s.leverRunning e r l) := by
  simp only [State.leverRunning]
  split
  · exact s.setEngine_only e _
  split
  · exact (s.setEngine_only e _).trans (State.complete_only _ e _ _)
  · exact s.setEngine_only e _

theorem State.leverPickup_only (r : RunRecord) (l : LeverRecord) :
    s.EnginesOnly (s.leverPickup e r l) := by
  simp only [State.leverPickup]
  split
  · split
    · exact (s.setEngine_only e _).trans (State.complete_only _ e _ _)
    · exact s.setEngine_only e _
  split
  · exact s.setEngine_only e _
  · exact s.setEngine_only e _

theorem State.deliverLever_only (me : Me) (p : Nat) : s.EnginesOnly (s.deliverLever tag me p) := by
  simp only [State.deliverLever]
  split
  · exact s.leverIdle_only tag _ _
  · exact s.leverRunning_only _ _ _
  · exact s.leverPickup_only _ _ _
  · exact s.leverPickup_only _ _ _
  · exact .refl s

theorem State.deliverSetTransition_only (t : NextSettings) :
    s.EnginesOnly (s.deliverSetTransition tag e t) := by
  simp only [State.deliverSetTransition]
  split
  · exact s.setEngine_only e _
  split
  · exact s.postNotice_only tag _ _ _
  · exact s.setEngine_only e _

end

/-- What holds of a state and is kept by a command to each engine is kept by it to a set of engines. -/
theorem State.forEngines_keeps {P : State → Prop} {f : State → EngineId → State}
    (h : ∀ s e, P s → P (f s e)) (s : State) (set : EngineSet) (hs : P s) :
    P (s.forEngines set f) := by
  unfold State.forEngines
  generalize EngineId.all = l
  induction l generalizing s with
  | nil => exact hs
  | cons e l ih =>
    refine ih _ ?_
    show P (if e.isIn set = true then f s e else s)
    split
    · exact h s e hs
    · exact hs

theorem State.stepEngines_keeps {P : State → Prop} (h : ∀ s e, P s → P (State.stepEngine s e))
    (s : State) (hs : P s) : P s.stepEngines := by
  unfold State.stepEngines
  generalize EngineId.all = l
  induction l generalizing s with
  | nil => exact hs
  | cons e l ih => exact ih _ (h s e hs)

theorem State.forEngines_only {f : State → EngineId → State}
    (h : ∀ (s : State) e, s.EnginesOnly (f s e))
    (s : State) (set : EngineSet) : s.EnginesOnly (s.forEngines set f) :=
  State.forEngines_keeps (P := s.EnginesOnly) (fun t e ht => ht.trans (h t e)) s set (.refl s)

theorem State.stepEngines_only (s : State) : s.EnginesOnly s.stepEngines :=
  State.stepEngines_keeps (P := s.EnginesOnly) (fun t e ht => ht.trans (t.stepEngine_only e)) s
    (.refl s)

end Sys2Proof.Machine
end

