-- ==== Sys2Proof/Laws/Completion.lean ====
section
/-!
SUPPORT. A completion said once (R90 to R93), and the keys that a latch takes (R78).
-/

namespace Sys2Proof.Machine

open Sys2Proof

/-- The on-air flags after a completion: each key of the run toggles once (R92). -/
theorem toggleKeys_look (keys : List (Nat × Direction)) (keyers : Vector Keyer 8)
    (hd : (keys.map Prod.fst).Nodup) {n : Nat} (hn : n ≤ 7) :
    look (toggleKeys keyers keys) n Keyer.reset =
      if n ∈ keys.map Prod.fst then
        { look keyers n Keyer.reset with onAir := !(look keyers n Keyer.reset).onAir }
      else look keyers n Keyer.reset := by
  have hn8 : n < 8 := by omega
  induction keys generalizing keyers with
  | nil => simp [toggleKeys]
  | cons k rest ih =>
    obtain ⟨k, d⟩ := k
    obtain ⟨hk, hr⟩ := List.nodup_cons.1 hd
    simp only [toggleKeys, ih _ hr, List.map_cons, List.mem_cons]
    by_cases h : n = k
    · subst h
      rw [if_neg hk]
      simp [look_put_same _ hn8]
    · have h' : k ≠ n := fun h' => h h'.symm
      simp only [look_put_ne _ h', h, false_or]

/-- A completion is what R90 to R93 say of it, where no key stands twice in the run. -/
theorem State.complete_completed (s : State) (e : EngineId) (r : RunRecord) (b : Bool)
    (hd : (r.elements.keys.map Prod.fst).Nodup) :
    s.completed (s.complete e r b) e r ((s.engine e).lever.afterCompletion b) := by
  refine ⟨rfl, ?_, fun n hn => toggleKeys_look _ _ hd hn, ?_, ?_, fun f hf => ?_⟩
  · simp only [State.complete_matrix]
    cases r.elements.bkgd <;> cases e <;> simp [Matrix.recordCompletion]
  · rw [State.complete_ftb]
    rcases r.elements.fade with _ | ⟨_ | _⟩ <;> rfl
  · rw [State.engine_complete, if_pos rfl]; rfl
  · rw [State.engine_complete, if_neg (Ne.symm hf)]

/-- No key stands twice in what an engine would latch (R78). -/
theorem State.nextElements_nodup (s : State) (e : EngineId) :
    ((s.nextElements e).keys.map Prod.fst).Nodup := by
  have h : ∀ (sel : NextSel) (b : Nat),
      (((sel.keys b).map fun n => (n, s.keyDirection n)).map Prod.fst).Nodup := by
    intro sel b
    simp only [List.map_map]
    have : (Prod.fst ∘ fun n => (n, s.keyDirection n)) = id := rfl
    rw [this, List.map_id]
    obtain ⟨bk, k1, k2, k3⟩ := sel
    cases k1 <;> cases k2 <;> cases k3 <;> simp [NextSel.keys]
  cases e
  · exact h _ _
  · exact h _ _
  all_goals simp [State.nextElements]

/-- The lever record after a completion that the lever did not make (R90, R99). -/
theorem LeverRecord.afterCompletion_false (r : LeverRecord) :
    r.afterCompletion false = r.leftBehind := by
  obtain ⟨l, se, o⟩ := r
  simp only [LeverRecord.afterCompletion, LeverRecord.leftBehind, Bool.false_eq_true, if_false]
  by_cases h : (LeverRecord.effective ⟨l, se, o⟩) = 0 <;> simp [h]

end Sys2Proof.Machine
end

