-- ==== Sys2Proof/Laws/Delivery.lean ====
section
/-!
SUPPORT. What the delivery of a command, the release of the due entries and an output field start leave
as it stands, and the one induction that every claim about a field start rests on.
-/

namespace Sys2Proof.Machine

open Sys2Proof

/-! ### The delivery of one command (R36) -/

/-- The commands that change engines alone, beside notices. -/
def isEngineCommand : Command → Bool
  | .setNext _ _ | .setTransition _ _ | .take _ | .cut _ | .hold _ | .resume _ | .release _
  | .lever _ _ | .force _ _ => true
  | _ => false

/-- A command to the engines changes nothing outside them. -/
theorem State.deliver_engine (s : State) (tag : Tag) (c : Command) (h : isEngineCommand c = true) :
    s.EnginesOnly (s.deliver tag c) := by
  cases c <;> simp only [isEngineCommand, Bool.false_eq_true] at h
  case setNext => exact s.setEngine_only _ _
  case setTransition => exact s.deliverSetTransition_only tag _ _
  case take => exact State.forEngines_only (fun s e => s.takeOne_only tag e) s _
  case cut => exact State.forEngines_only (fun s e => s.cutOne_only tag e) s _
  case hold => exact State.forEngines_only (fun s e => s.holdOne_only tag e) s _
  case resume => exact State.forEngines_only (fun s e => s.resumeOne_only tag e) s _
  case release => exact State.forEngines_only (fun s e => s.setEngine_only e _) s _
  case lever => exact s.deliverLever_only tag _ _
  case force => exact s.setEngine_only _ _

section
variable (s : State) (tag : Tag) (c : Command)

/-- A delivery leaves alone the queue, the free counter, the packets, the tally, the STATUS items and what
the pictures of the field are formed from. -/
theorem State.deliver_keeps_rest :
    (s.deliver tag c).pending = s.pending ∧ (s.deliver tag c).free = s.free ∧
    (s.deliver tag c).packets = s.packets ∧ (s.deliver tag c).tally = s.tally ∧
    (s.deliver tag c).status = s.status ∧ (s.deliver tag c).picture = s.picture := by
  by_cases h : isEngineCommand c = true
  · have f := s.deliver_engine tag c h
    exact ⟨f.pending, f.free, f.packets, f.tally, f.status, f.picture⟩
  · cases c <;> first
      | exact absurd rfl h
      | exact ⟨rfl, rfl, rfl, rfl, rfl, rfl⟩
      | (simp only [State.deliver, State.deliverSelect, State.deliverSetFormat,
          State.deliverSetMatte]; split <;> exact ⟨rfl, rfl, rfl, rfl, rfl, rfl⟩)

/-- A delivery changes the Timing Unit only by a SET FORMAT that takes effect (R8). -/
theorem State.deliver_timing :
    (s.deliver tag c).timing = s.timing ∨
      ∃ f, c = .setFormat f ∧ (s.deliver tag c).timing = s.timing.changeFormat f := by
  by_cases h : isEngineCommand c = true
  · exact .inl (s.deliver_engine tag c h).timing
  · cases c
    case setFormat f =>
      simp only [State.deliver, State.deliverSetFormat]
      split
      · exact .inr ⟨f, rfl, rfl⟩
      · exact .inl rfl
    all_goals first
      | exact absurd rfl h
      | exact .inl rfl
      | (simp only [State.deliver, State.deliverSelect, State.deliverSetMatte]
         split <;> exact .inl rfl)

/-- A delivery changes the Pending List only by an ENGINE RESET or a PURGE (R30, R38). -/
theorem State.deliver_waiting (hc : c ≠ .engineReset) (ha : c.atArrival = false) :
    (s.deliver tag c).waiting = s.waiting := by
  by_cases h : isEngineCommand c = true
  · exact (s.deliver_engine tag c h).waiting
  · cases c <;> first
      | exact absurd rfl h
      | exact absurd rfl hc
      | exact Bool.noConfusion (show true = false from ha)
      | rfl
      | (simp only [State.deliver, State.deliverSelect, State.deliverSetFormat,
          State.deliverSetMatte]; split <;> rfl)

/-- A delivery changes the bypass state never, and the staged request only by a BYPASS (R29, R69). -/
theorem State.deliver_bypass (ha : c.atArrival = false) :
    (s.deliver tag c).matrix.bypass = s.matrix.bypass ∧
      (s.deliver tag c).matrix.staged = s.matrix.staged := by
  by_cases h : isEngineCommand c = true
  · have f := s.deliver_engine tag c h
    exact ⟨f.bypass, f.staged⟩
  · cases c <;> first
      | exact absurd rfl h
      | exact Bool.noConfusion (show true = false from ha)
      | exact ⟨rfl, rfl⟩
      | (simp only [State.deliver, State.deliverSelect, State.deliverSetFormat,
          State.deliverSetMatte]; split <;> exact ⟨rfl, rfl⟩)

/-- A delivery leaves the TEST register alone (R163, R164). -/
theorem State.deliver_test : (s.deliver tag c).generators.test = s.generators.test := by
  by_cases h : isEngineCommand c = true
  · rw [(s.deliver_engine tag c h).generators]
  · cases c <;> first
      | exact absurd rfl h
      | rfl
      | (simp only [State.deliver, State.deliverSelect, State.deliverSetFormat,
          State.deliverSetMatte]; split <;> rfl)

end

/-! ### The release of the due entries (R35) -/

/-- What holds of a state, and is kept by the delivery of a head that is due, holds after the release. -/
theorem State.release_keeps {P : State → Prop}
    (h : ∀ (s : State) (e : Entry) (rest : List Entry), P s → s.waiting.entries = e :: rest →
      e.due = s.timing.field →
      P ({ s with waiting := s.waiting.removeHead }.deliver e.tag e.command)) :
    ∀ (fuel : Nat) (s : State), P s → P (State.release fuel s)
  | 0, _, hs => hs
  | fuel + 1, s, hs => by
    rw [State.release]
    split
    · exact hs
    · rename_i e rest he
      split
      · exact State.release_keeps h fuel _ (h s e rest hs he ‹_›)
      · exact hs

/-- With nothing due the release does nothing. -/
theorem State.release_of_none_due (fuel : Nat) (s : State)
    (h : ∀ e ∈ s.waiting.entries, e.due ≠ s.timing.field) : State.release fuel s = s := by
  cases fuel with
  | zero => rfl
  | succ fuel =>
    rw [State.release]
    split
    · rfl
    · rename_i e rest he
      rw [if_neg (h e (by rw [he]; exact List.mem_cons_self))]

/-! ### The watch (R12) -/

/-- What is kept by the watch of each lane is kept by the watch over all of them. -/
theorem State.watchLanes_keeps {P : State → Prop}
    (h : ∀ s n, n ∈ laneNumbers → P s → P (State.watchLane s n)) (s : State) (hs : P s) : P s.watchLanes := by
  unfold State.watchLanes
  generalize hl : laneNumbers = l
  have hsub : ∀ n ∈ l, n ∈ laneNumbers := by rw [hl]; exact fun _ => id
  clear hl
  induction l generalizing s with
  | nil => exact hs
  | cons n l ih =>
    exact ih _ (h s n (hsub n List.mem_cons_self) hs)
      fun m hm => hsub m (List.mem_cons_of_mem _ hm)

/-- The watch changes lanes, a packet in reception and the reports, and nothing else. -/
theorem State.watchLanes_frame (s : State) :
    s.watchLanes =
      { s with
        lanes := s.watchLanes.lanes, receiver := s.watchLanes.receiver
        reports := s.watchLanes.reports } := by
  refine State.watchLanes_keeps
    (P := fun t => t = { s with lanes := t.lanes, receiver := t.receiver, reports := t.reports })
    (fun t n _ ht => ?_) s rfl
  simp only [State.watchLane]
  split
  · show State.laneToDown _ _ = _
    rw [State.laneToDown, State.postCondition, State.setLane, State.setLane, ht]
  · rw [State.setLane, ht]

section
variable (s : State)

@[simp] theorem State.watchLanes_timing : s.watchLanes.timing = s.timing := by
  rw [s.watchLanes_frame]
@[simp] theorem State.watchLanes_waiting : s.watchLanes.waiting = s.waiting := by
  rw [s.watchLanes_frame]
@[simp] theorem State.watchLanes_tables : s.watchLanes.tables = s.tables := by
  rw [s.watchLanes_frame]
@[simp] theorem State.watchLanes_matrix : s.watchLanes.matrix = s.matrix := by
  rw [s.watchLanes_frame]
@[simp] theorem State.watchLanes_engines : s.watchLanes.engines = s.engines := by
  rw [s.watchLanes_frame]
@[simp] theorem State.watchLanes_keyers : s.watchLanes.keyers = s.keyers := by
  rw [s.watchLanes_frame]
@[simp] theorem State.watchLanes_generators : s.watchLanes.generators = s.generators := by
  rw [s.watchLanes_frame]
@[simp] theorem State.watchLanes_checker : s.watchLanes.checker = s.checker := by
  rw [s.watchLanes_frame]
@[simp] theorem State.watchLanes_picture : s.watchLanes.picture = s.picture := by
  rw [s.watchLanes_frame]
@[simp] theorem State.watchLanes_packets : s.watchLanes.packets = s.packets := by
  rw [s.watchLanes_frame]
@[simp] theorem State.watchLanes_pending : s.watchLanes.pending = s.pending := by
  rw [s.watchLanes_frame]

end

/-! ### The parts of a field start, field by field -/

section
variable (s : State)

@[simp] theorem State.beginField_timing : s.beginField.timing = s.timing.turnField := rfl
@[simp] theorem State.beginField_lanes : s.beginField.lanes = s.lanes := rfl
@[simp] theorem State.beginField_receiver : s.beginField.receiver = s.receiver := rfl
@[simp] theorem State.beginField_waiting : s.beginField.waiting = s.waiting := rfl
@[simp] theorem State.beginField_tables : s.beginField.tables = s.tables := rfl
@[simp] theorem State.beginField_matrix : s.beginField.matrix = s.matrix := rfl
@[simp] theorem State.beginField_engines : s.beginField.engines = s.engines := rfl
@[simp] theorem State.beginField_keyers : s.beginField.keyers = s.keyers := rfl
@[simp] theorem State.beginField_ftb : s.beginField.ftb = s.ftb := rfl
@[simp] theorem State.beginField_mon : s.beginField.mon = s.mon := rfl
@[simp] theorem State.beginField_tally : s.beginField.tally = s.tally := rfl
@[simp] theorem State.beginField_generators : s.beginField.generators = { s.generators with test := 1 } := rfl
@[simp] theorem State.beginField_checker : s.beginField.checker = s.checker := rfl
@[simp] theorem State.beginField_reports : s.beginField.reports = s.reports := rfl
@[simp] theorem State.beginField_status : s.beginField.status = s.status := rfl
@[simp] theorem State.beginField_picture : s.beginField.picture = s.picture := rfl
@[simp] theorem State.beginField_packets : s.beginField.packets = [] := rfl
@[simp] theorem State.beginField_free : s.beginField.free = s.free + 1 := rfl
@[simp] theorem State.beginField_pending : s.beginField.pending = s.pending := rfl

@[simp] theorem State.applyBypass_timing : s.applyBypass.timing = s.timing := rfl
@[simp] theorem State.applyBypass_lanes : s.applyBypass.lanes = s.lanes := rfl
@[simp] theorem State.applyBypass_receiver : s.applyBypass.receiver = s.receiver := rfl
@[simp] theorem State.applyBypass_waiting : s.applyBypass.waiting = s.waiting := rfl
@[simp] theorem State.applyBypass_tables : s.applyBypass.tables = s.tables := rfl
@[simp] theorem State.applyBypass_matrix : s.applyBypass.matrix = s.matrix.applyBypass := rfl
@[simp] theorem State.applyBypass_engines : s.applyBypass.engines = s.engines := rfl
@[simp] theorem State.applyBypass_keyers : s.applyBypass.keyers = s.keyers := rfl
@[simp] theorem State.applyBypass_ftb : s.applyBypass.ftb = s.ftb := rfl
@[simp] theorem State.applyBypass_mon : s.applyBypass.mon = s.mon := rfl
@[simp] theorem State.applyBypass_tally : s.applyBypass.tally = s.tally := rfl
@[simp] theorem State.applyBypass_generators : s.applyBypass.generators = s.generators := rfl
@[simp] theorem State.applyBypass_checker : s.applyBypass.checker = s.checker := rfl
@[simp] theorem State.applyBypass_reports : s.applyBypass.reports = s.reports := rfl
@[simp] theorem State.applyBypass_status : s.applyBypass.status = s.status := rfl
@[simp] theorem State.applyBypass_picture : s.applyBypass.picture = s.picture := rfl
@[simp] theorem State.applyBypass_packets : s.applyBypass.packets = s.packets := rfl
@[simp] theorem State.applyBypass_free : s.applyBypass.free = s.free := rfl
@[simp] theorem State.applyBypass_pending : s.applyBypass.pending = s.pending := rfl

@[simp] theorem State.exchange_timing : s.exchange.timing = s.timing := rfl
@[simp] theorem State.exchange_lanes : s.exchange.lanes = s.lanes := rfl
@[simp] theorem State.exchange_receiver : s.exchange.receiver = s.receiver := rfl
@[simp] theorem State.exchange_waiting : s.exchange.waiting = s.waiting := rfl
@[simp] theorem State.exchange_tables : s.exchange.tables = s.tables := rfl
@[simp] theorem State.exchange_matrix : s.exchange.matrix = s.matrix.exchange := rfl
@[simp] theorem State.exchange_engines : s.exchange.engines = s.engines := rfl
@[simp] theorem State.exchange_keyers : s.exchange.keyers = s.keyers := rfl
@[simp] theorem State.exchange_ftb : s.exchange.ftb = s.ftb := rfl
@[simp] theorem State.exchange_mon : s.exchange.mon = s.mon := rfl
@[simp] theorem State.exchange_tally : s.exchange.tally = s.tally := rfl
@[simp] theorem State.exchange_generators : s.exchange.generators = s.generators := rfl
@[simp] theorem State.exchange_checker : s.exchange.checker = s.checker := rfl
@[simp] theorem State.exchange_reports : s.exchange.reports = s.reports := rfl
@[simp] theorem State.exchange_status : s.exchange.status = s.status := rfl
@[simp] theorem State.exchange_picture : s.exchange.picture = s.picture := rfl
@[simp] theorem State.exchange_packets : s.exchange.packets = s.packets := rfl
@[simp] theorem State.exchange_free : s.exchange.free = s.free := rfl
@[simp] theorem State.exchange_pending : s.exchange.pending = s.pending := rfl

@[simp] theorem State.formTally_timing : s.formTally.timing = s.timing := rfl
@[simp] theorem State.formTally_lanes : s.formTally.lanes = s.lanes := rfl
@[simp] theorem State.formTally_receiver : s.formTally.receiver = s.receiver := rfl
@[simp] theorem State.formTally_waiting : s.formTally.waiting = s.waiting := rfl
@[simp] theorem State.formTally_tables : s.formTally.tables = s.tables := rfl
@[simp] theorem State.formTally_matrix : s.formTally.matrix = s.matrix := rfl
@[simp] theorem State.formTally_engines : s.formTally.engines = s.engines := rfl
@[simp] theorem State.formTally_keyers : s.formTally.keyers = s.keyers := rfl
@[simp] theorem State.formTally_ftb : s.formTally.ftb = s.ftb := rfl
@[simp] theorem State.formTally_mon : s.formTally.mon = s.mon := rfl
@[simp] theorem State.formTally_tally : s.formTally.tally = ⟨s.programTally, s.previewTally⟩ := rfl
@[simp] theorem State.formTally_generators : s.formTally.generators = s.generators := rfl
@[simp] theorem State.formTally_checker : s.formTally.checker = s.checker := rfl
@[simp] theorem State.formTally_reports : s.formTally.reports = s.reports := rfl
@[simp] theorem State.formTally_status : s.formTally.status = s.status := rfl
@[simp] theorem State.formTally_picture : s.formTally.picture = s.picture := rfl
@[simp] theorem State.formTally_packets : s.formTally.packets = s.packets := rfl
@[simp] theorem State.formTally_free : s.formTally.free = s.free := rfl
@[simp] theorem State.formTally_pending : s.formTally.pending = s.pending := rfl

@[simp] theorem State.takeStatus_timing : s.takeStatus.timing = s.timing := rfl
@[simp] theorem State.takeStatus_lanes : s.takeStatus.lanes = s.lanes := rfl
@[simp] theorem State.takeStatus_receiver : s.takeStatus.receiver = s.receiver := rfl
@[simp] theorem State.takeStatus_waiting : s.takeStatus.waiting = s.waiting := rfl
@[simp] theorem State.takeStatus_tables : s.takeStatus.tables = s.tables := rfl
@[simp] theorem State.takeStatus_matrix : s.takeStatus.matrix = s.matrix := rfl
@[simp] theorem State.takeStatus_engines : s.takeStatus.engines = s.engines := rfl
@[simp] theorem State.takeStatus_keyers : s.takeStatus.keyers = s.keyers := rfl
@[simp] theorem State.takeStatus_ftb : s.takeStatus.ftb = s.ftb := rfl
@[simp] theorem State.takeStatus_mon : s.takeStatus.mon = s.mon := rfl
@[simp] theorem State.takeStatus_tally : s.takeStatus.tally = s.tally := rfl
@[simp] theorem State.takeStatus_generators : s.takeStatus.generators = s.generators := rfl
@[simp] theorem State.takeStatus_checker : s.takeStatus.checker = s.checker := rfl
@[simp] theorem State.takeStatus_reports : s.takeStatus.reports = s.reports := rfl
@[simp] theorem State.takeStatus_status : s.takeStatus.status = s.statusView := rfl
@[simp] theorem State.takeStatus_picture : s.takeStatus.picture = s.picture := rfl
@[simp] theorem State.takeStatus_packets : s.takeStatus.packets = s.packets := rfl
@[simp] theorem State.takeStatus_free : s.takeStatus.free = s.free := rfl
@[simp] theorem State.takeStatus_pending : s.takeStatus.pending = s.pending := rfl

end

/-! ### The output field start (R1) -/

/-- The one induction about a field start: what holds once the field has begun, the lanes have been
watched and the bypass applied, and is kept by each delivery, by the AUTO step of each engine, by the
exchange, the delivery decisions, the pictures, the tally and the STATUS items, holds after the field
start. -/
theorem State.startField_keeps {P : State → Prop} (s : State)
    (h0 : P s.beginField.watchLanes.applyBypass)
    (hd : ∀ (t : State) (e : Entry) (rest : List Entry), P t → t.waiting.entries = e :: rest →
      e.due = t.timing.field →
      P ({ t with waiting := t.waiting.removeHead }.deliver e.tag e.command))
    (he : ∀ t e, P t → P (State.stepEngine t e)) (hx : ∀ t : State, P t → P t.exchange)
    (hl : ∀ t : State, P t → P t.decideLanes) (hp : ∀ t : State, P t → P t.takePicture)
    (ht : ∀ t : State, P t → P t.formTally) (hs : ∀ t : State, P t → P t.takeStatus) : P s.startField :=
  hs _ (ht _ (hp _ (hl _ (hx _ (State.stepEngines_keeps he _ (State.release_keeps hd _ _ h0))))))

/-- With nothing due at the field the field start is the watch, the bypass, the AUTO steps and the rest. -/
theorem State.startField_of_none_due (s : State)
    (h : ∀ e ∈ s.waiting.entries, e.due ≠ s.timing.counter) :
    s.startField =
      (s.beginField.watchLanes.applyBypass.stepEngines.exchange.decideLanes.takePicture
        |>.formTally.takeStatus) := by
  unfold State.startField
  rw [State.releaseDue, State.release_of_none_due]
  intro e he
  simp only [State.applyBypass_waiting, State.watchLanes_waiting, State.beginField_waiting] at he
  simpa [Timing.turnField] using h e he

/-- With nothing due at the field the Timing Unit takes its turn and the Pending List stays (R1). -/
theorem State.startField_timing_of_none_due (s : State)
    (h : ∀ e ∈ s.waiting.entries, e.due ≠ s.timing.counter) :
    s.startField.timing = s.timing.turnField ∧ s.startField.waiting = s.waiting := by
  rw [s.startField_of_none_due h]
  have f := State.stepEngines_only s.beginField.watchLanes.applyBypass
  simp [f.timing, f.waiting]

/-- A field start takes the field counter, whatever is delivered at it (R1). -/
theorem State.startField_numbers (s : State) :
    s.startField.timing.field = s.timing.counter ∧
      s.startField.timing.counter = s.timing.counter + 1 ∧
      s.startField.timing.started = true ∧ s.startField.timing.sinceField = 0 ∧
      s.startField.timing.wrong = s.timing.wrong ∧ s.startField.timing.silent = s.timing.silent ∧
      s.startField.pending = s.pending ∧ s.startField.packets = [] ∧
      s.startField.generators.test = 1 ∧ s.startField.timing.presented = false := by
  refine State.startField_keeps (P := fun t => t.timing.field = s.timing.counter ∧
    t.timing.counter = s.timing.counter + 1 ∧ t.timing.started = true ∧ t.timing.sinceField = 0 ∧
    t.timing.wrong = s.timing.wrong ∧ t.timing.silent = s.timing.silent ∧
    t.pending = s.pending ∧ t.packets = [] ∧ t.generators.test = 1 ∧ t.timing.presented = false) s
    ?_ ?_ ?_ ?_ ?_ ?_ ?_ ?_
  · simp [Timing.turnField]
  · intro t e rest ht _ _
    have hr := State.deliver_keeps_rest { t with waiting := t.waiting.removeHead } e.tag e.command
    have hg := State.deliver_test { t with waiting := t.waiting.removeHead } e.tag e.command
    obtain h | ⟨f, -, h⟩ :=
      State.deliver_timing { t with waiting := t.waiting.removeHead } e.tag e.command
    · rw [h, hr.1, hr.2.2.1, hg]; exact ht
    · rw [h, hr.1, hr.2.2.1, hg]
      obtain ⟨a, b, c, d, e, f, g, i, j⟩ := ht
      refine ⟨a, b, c, ?_, e, f, g, i, j⟩
      show newTicks _ _ _ = 0
      rw [newTicks, if_pos (.inr d)]; exact d
  · intro t e ht
    have f := t.stepEngine_only e
    rw [f.timing, f.pending, f.packets, f.generators]; exact ht
  all_goals exact fun t ht => ht

end Sys2Proof.Machine
end

