-- ==== Sys2Proof/Laws/EngineSets.lean ====
section
/-!
SUPPORT. A command to a set of engines (R37, R89), said once: TAKE and CUT do to each engine of the set what
stood for it when the command was delivered, and touch nothing of another one.
-/

namespace Sys2Proof.Machine

open Sys2Proof

/-- What TAKE or CUT does to one engine: its run completes, it becomes another record, a notice is posted,
or nothing happens (R83 to R85). -/
inductive EngineAct where
  | completes (r : RunRecord)
  | becomes (x : Engine)
  | posts (x : Notice)
  | rests

/-- A run of the background completes (R91). -/
def EngineAct.exchanges : EngineAct → Bool
  | .completes r => r.elements.bkgd
  | _ => false

/-- That done to engine `e`. -/
def State.act (s : State) (e : EngineId) : EngineAct → State
  | .completes r => s.complete e r false
  | .becomes x => s.setEngine e x
  | .posts x => { s with reports := s.reports.notice x s.timing.field }
  | .rests => s

/-- What TAKE does to engine `e` (R83, R84). -/
def State.takeAct (s : State) (tag : Tag) (e : EngineId) : EngineAct :=
  if (s.engine e).state = .idle then
    if s.nothingNext e then .posts ⟨tag, 4, .emptyNext, e.code⟩
    else if (s.engine e).next.rate = 0 then .completes (s.latch e .auto)
    else .becomes { s.engine e with state := .auto, j := 0, q := 0, run := some (s.latch e .auto) }
  else .posts ⟨tag, 4, .busy, e.code⟩

/-- What CUT does to engine `e` (R85). -/
def State.cutAct (s : State) (tag : Tag) (e : EngineId) : EngineAct :=
  if (s.engine e).state = .idle then
    if s.nothingNext e then .posts ⟨tag, 5, .emptyNext, e.code⟩ else .completes (s.latch e .auto)
  else
    match (s.engine e).run with
    | some r => .completes r
    | none => .rests

theorem State.takeOne_act (s : State) (tag : Tag) (e : EngineId) :
    State.takeOne tag s e = s.act e (s.takeAct tag e) := by
  unfold State.takeOne State.takeAct
  cases (s.engine e).state
  · simp only [if_true]
    split
    · rfl
    · split <;> rfl
  all_goals rfl

theorem State.cutOne_act (s : State) (tag : Tag) (e : EngineId) :
    State.cutOne tag s e = s.act e (s.cutAct tag e) := by
  unfold State.cutOne State.cutAct
  cases (s.engine e).state
  · simp only [if_true]
    split <;> rfl
  all_goals
    simp only [reduceCtorEq, if_false]
    cases (s.engine e).run <;> rfl

/-- `t` agrees with `s` in all that a command to engine `e` looks at. -/
structure State.SameFor (s t : State) (e : EngineId) : Prop where
  engine : t.engine e = s.engine e
  keyer : ∀ n, n ≤ 7 → keyerEngine n = e → t.keyer n = s.keyer n
  ftb : e = .ftb → t.ftb = s.ftb
  tables : t.tables = s.tables

theorem State.SameFor.nextElements {s t : State} {e : EngineId} (h : s.SameFor t e) :
    t.nextElements e = s.nextElements e := by
  have hd : ∀ n, n ≤ 7 → keyerEngine n = e → t.keyDirection n = s.keyDirection n := by
    intro n hn he
    rw [State.keyDirection, State.keyDirection, h.keyer n hn he]
  cases e
  · simp only [State.nextElements, h.engine, EngineId.firstKeyer]
    congr 1
    refine List.map_congr_left fun n hn => ?_
    rw [hd]
    all_goals
      simp only [NextSel.keys, List.mem_append] at hn
      rcases hn with (hn | hn) | hn <;> split at hn <;> simp at hn <;> subst hn <;> decide
  · simp only [State.nextElements, h.engine, EngineId.firstKeyer]
    congr 1
    refine List.map_congr_left fun n hn => ?_
    rw [hd]
    all_goals
      simp only [NextSel.keys, List.mem_append] at hn
      rcases hn with (hn | hn) | hn <;> split at hn <;> simp at hn <;> subst hn <;> decide
  · simp only [State.nextElements, EngineId.firstKeyer, hd 6 (by decide) rfl]
  · simp only [State.nextElements, EngineId.firstKeyer, hd 7 (by decide) rfl]
  · simp only [State.nextElements, h.ftb rfl]

theorem State.SameFor.latch {s t : State} {e : EngineId} (h : s.SameFor t e) (d : Driver) :
    t.latch e d = s.latch e d := by
  simp only [State.latch, h.nextElements, h.engine, State.shape, h.tables]

theorem State.SameFor.takeAct {s t : State} {e : EngineId} (h : s.SameFor t e) (tag : Tag) :
    t.takeAct tag e = s.takeAct tag e := by
  simp only [State.takeAct, State.nothingNext, h.engine, h.latch]

theorem State.SameFor.cutAct {s t : State} {e : EngineId} (h : s.SameFor t e) (tag : Tag) :
    t.cutAct tag e = s.cutAct tag e := by
  simp only [State.cutAct, State.nothingNext, h.engine, h.latch]
  rfl

/-- A latched run record belongs to its engine (R78). -/
theorem State.latch_belongsTo (s : State) (e : EngineId) (d : Driver) :
    (s.latch e d).belongsTo e := by
  have hk : ∀ (sel : NextSel) (b : Nat) (e : EngineId),
      keyerEngine b = e → keyerEngine (b + 1) = e → keyerEngine (b + 2) = e → b + 2 ≤ 7 →
      ∀ k ∈ (sel.keys b).map fun n => (n, s.keyDirection n), k.1 ≤ 7 ∧ keyerEngine k.1 = e := by
    intro sel b e h0 h1 h2 hb k hk
    obtain ⟨n, hn, rfl⟩ := List.mem_map.1 hk
    simp only [NextSel.keys, List.mem_append] at hn
    rcases hn with (hn | hn) | hn <;> split at hn <;> simp at hn <;> subst hn <;>
      exact ⟨by simp only; omega, by assumption⟩
  refine ⟨s.nextElements_nodup e, ?_, ?_, ?_, ?_⟩
  · cases e
    · exact hk _ 0 _ rfl rfl rfl (by decide)
    · exact hk _ 3 _ rfl rfl rfl (by decide)
    all_goals
      simp only [State.latch, State.nextElements, EngineId.firstKeyer]
      simp [keyerEngine]
  · cases e <;> simp [State.latch, State.nextElements, EngineId.isMe]
  · cases e <;> simp [State.latch, State.nextElements]
  · cases e <;> simp [State.latch, EngineId.isMe]

/-- `t` is `s` with what `acts` says done to each engine of `es`, each one at its own engine, keys and fade
(R37, R89). -/
structure State.Acted (s t : State) (es : List EngineId) (acts : EngineId → EngineAct) : Prop where
  frame : t =
    { s with
      matrix := t.matrix, keyers := t.keyers, ftb := t.ftb, engines := t.engines
      reports := t.reports }
  matrix : t.matrix =
    { s.matrix with
      exchange1 :=
        s.matrix.exchange1 +
          if EngineId.me1 ∈ es ∧ (acts .me1).exchanges = true then 1 else 0
      exchange2 :=
        s.matrix.exchange2 +
          if EngineId.me2 ∈ es ∧ (acts .me2).exchanges = true then 1 else 0 }
  toggled : ∀ n e r, n ≤ 7 → e ∈ es → acts e = .completes r → n ∈ r.elements.keys.map Prod.fst →
    t.keyer n = { s.keyer n with onAir := !(s.keyer n).onAir }
  kept : ∀ n, n ≤ 7 →
    (∀ e r, e ∈ es → acts e = .completes r → n ∉ r.elements.keys.map Prod.fst) →
    t.keyer n = s.keyer n
  ftb : t.ftb =
    match acts .ftb with
    | .completes r => if .ftb ∈ es then s.ftb.afterCompletion r.elements.fade else s.ftb
    | _ => s.ftb
  outside : ∀ e, e ∉ es → t.engine e = s.engine e
  inside : ∀ e, e ∈ es → t.engine e =
    match acts e with
    | .completes _ =>
      { s.engine e with
        state := .idle, j := 0, q := 0, run := none, lever := (s.engine e).lever.leftBehind }
    | .becomes x => x
    | _ => s.engine e
  reports : t.reports =
    es.foldl
      (fun r e =>
        match acts e with
        | .posts x => r.notice x s.timing.field
        | _ => r)
      s.reports

theorem State.Acted.nil (s : State) (acts : EngineId → EngineAct) : s.Acted s [] acts := by
  refine ⟨rfl, ?_, ?_, ?_, ?_, fun _ _ => rfl, ?_, rfl⟩
  · simp
  · intro n e r _ h; cases h
  · intros; rfl
  · cases acts .ftb <;> simp
  · intro e h; cases h

/-- What is done to the engines of a list leaves another engine, its keys and its fade as they are. -/
theorem State.Acted.sameFor {s t : State} {es : List EngineId} {acts : EngineId → EngineAct}
    (h : s.Acted t es acts) (hb : ∀ e r, acts e = .completes r → r.belongsTo e) {e : EngineId}
    (he : e ∉ es) : s.SameFor t e := by
  refine ⟨h.outside e he, fun n hn hk => h.kept n hn fun e' r h' ha hm => ?_, ?_, ?_⟩
  · obtain ⟨k, hkm, rfl⟩ := List.mem_map.1 hm
    have := ((hb e' r ha).2.1 k hkm).2
    rw [hk] at this
    exact he (this ▸ h')
  · rintro rfl
    rw [h.ftb]
    cases acts .ftb <;> simp [he]
  · rw [h.frame]

theorem State.Acted.snoc {s t : State} {es : List EngineId} {acts : EngineId → EngineAct}
    (h : s.Acted t es acts) (hb : ∀ e r, acts e = .completes r → r.belongsTo e) {e : EngineId}
    (he : e ∉ es) : s.Acted (t.act e (acts e)) (es ++ [e]) acts := by
  have hs := h.sameFor hb he
  have hm : ∀ f, f ∈ es ++ [e] ↔ f ∈ es ∨ f = e := by simp
  have ht : t.timing = s.timing := by rw [h.frame]
  cases ha : acts e with
  | completes r =>
    have hc := t.complete_completed e r false (hb e r ha).1
    obtain ⟨c0, c1, c2, c3, c4, c5⟩ := hc
    have hxr : (EngineAct.completes r).exchanges = r.elements.bkgd := rfl
    show s.Acted (t.complete e r false) _ _
    refine ⟨?_, ?_, ?_, ?_, ?_, ?_, ?_, ?_⟩
    · rw [c0]; conv_lhs => rw [h.frame]
      rfl
    · rw [c1, h.matrix]
      by_cases h1 : e = .me1
      · subst h1
        simp only [hm, ha, he, hxr, false_or, true_and, false_and, if_false, reduceCtorEq,
          or_false, and_false, and_true, Nat.add_zero]
      · by_cases h2 : e = .me2
        · subst h2
          simp only [hm, ha, he, hxr, false_or, true_and, false_and, if_false, reduceCtorEq,
            or_false, and_false, and_true, Nat.add_zero]
        · have h1' : EngineId.me1 ≠ e := Ne.symm h1
          have h2' : EngineId.me2 ≠ e := Ne.symm h2
          simp only [hm, h1, h2, h1', h2', or_false, and_false, if_false, Nat.add_zero]
    · intro n f r' hn hf hf' hmem
      rw [c2 n hn]
      rcases (hm f).1 hf with hf | rfl
      · have hne : n ∉ r.elements.keys.map Prod.fst := by
          intro hx
          obtain ⟨k, hk, rfl⟩ := List.mem_map.1 hx
          obtain ⟨k', hk', hkk⟩ := List.mem_map.1 hmem
          have a := ((hb e r ha).2.1 k hk).2
          have b := ((hb f r' hf').2.1 k' hk').2
          rw [hkk, a] at b
          exact he (b ▸ hf)
        rw [if_neg hne]
        exact h.toggled n f r' hn hf hf' hmem
      · rw [ha] at hf'
        cases hf'
        rw [if_pos hmem]
        obtain ⟨k, hk, hkn⟩ := List.mem_map.1 hmem
        have a := ((hb f r ha).2.1 k hk).2
        rw [hkn] at a
        rw [hs.keyer n hn a]
    · intro n hn hx
      rw [c2 n hn, if_neg (hx e r ((hm e).2 (.inr rfl)) ha)]
      exact h.kept n hn fun f r' hf => hx f r' ((hm f).2 (.inl hf))
    · rw [State.complete_ftb]
      by_cases hfe : e = .ftb
      · subst hfe
        rw [hs.ftb rfl, ha]
        simp
      · have hn : r.elements.fade = none := by
          rcases hr : r.elements.fade with _ | x
          · rfl
          · exact absurd ((hb e r ha).2.2.2.1.1 (by rw [hr]; exact fun h => by cases h)) hfe
        rw [hn, show ∀ f : FtbState, f.afterCompletion none = f from fun _ => rfl, h.ftb]
        have hfe' : EngineId.ftb ≠ e := Ne.symm hfe
        simp only [hm, hfe', or_false]
    · intro f hf
      have hf' := fun h' => hf ((hm f).2 h')
      rw [c5 f (fun h' => hf' (.inr h')), h.outside f (fun h' => hf' (.inl h'))]
    · intro f hf
      rcases (hm f).1 hf with hf | rfl
      · rw [c5 f (fun h' => he (h' ▸ hf)), h.inside f hf]
      · rw [ha, c4, hs.engine, LeverRecord.afterCompletion_false]
    · rw [List.foldl_append, ← h.reports]
      simp only [List.foldl_cons, List.foldl_nil, ha]
      rw [c0]
  | becomes x =>
    show s.Acted (t.setEngine e x) _ _
    have hne : ∀ f, acts f ≠ acts e → f ≠ e := fun f h h' => h (by rw [h'])
    have key : ∀ f r, acts f = .completes r → (f ∈ es ++ [e] ↔ f ∈ es) := by
      intro f r hf
      rw [hm]
      exact or_iff_left (by rintro rfl; rw [ha] at hf; cases hf)
    have exch : ∀ f, (acts f).exchanges = true → (f ∈ es ++ [e] ↔ f ∈ es) := by
      intro f hf
      cases hx : acts f with
      | completes r => exact key f r hx
      | _ => rw [hx] at hf; cases hf
    refine ⟨?_, ?_, ?_, ?_, ?_, ?_, ?_, ?_⟩
    · conv_lhs => rw [h.frame]
      rfl
    · rw [State.setEngine_matrix, h.matrix]
      simp only [and_congr_left (exch _)]
    · intro n f r hn hf hf' hmem
      exact h.toggled n f r hn ((key f r hf').1 hf) hf' hmem
    · intro n hn hx
      exact h.kept n hn fun f r hf hr => hx f r ((key f r hr).2 hf) hr
    · rw [State.setEngine_ftb, h.ftb]
      cases hf : acts .ftb <;> simp only []
      rename_i r
      simp only [key _ r hf]
    · intro f hf
      have hf' := fun h' => hf ((hm f).2 h')
      rw [State.engine_setEngine_ne _ (fun h' => hf' (.inr h'.symm)), h.outside f (fun h' => hf' (.inl h'))]
    · intro f hf
      rcases (hm f).1 hf with hf | rfl
      · rw [State.engine_setEngine_ne _ (fun h' => he (by rw [h']; exact hf)), h.inside f hf]
      · rw [ha, State.engine_setEngine_same]
    · rw [List.foldl_append, ← h.reports]
      simp only [List.foldl_cons, List.foldl_nil, ha]
      rfl
  | _ =>
    have key : ∀ f r, acts f = .completes r → (f ∈ es ++ [e] ↔ f ∈ es) := by
      intro f r hf
      rw [hm]
      exact or_iff_left (by rintro rfl; rw [ha] at hf; cases hf)
    have exch : ∀ f, (acts f).exchanges = true → (f ∈ es ++ [e] ↔ f ∈ es) := by
      intro f hf
      cases hx : acts f with
      | completes r => exact key f r hx
      | _ => rw [hx] at hf; cases hf
    refine ⟨?_, ?_, ?_, ?_, ?_, ?_, ?_, ?_⟩
    · have hu : t.act e (acts e) =
          { t with
            matrix := (t.act e (acts e)).matrix, keyers := (t.act e (acts e)).keyers
            ftb := (t.act e (acts e)).ftb, engines := (t.act e (acts e)).engines
            reports := (t.act e (acts e)).reports } := by rw [ha]; rfl
      rw [ha] at hu
      generalize t.act e _ = u at hu ⊢
      conv_lhs => rw [hu, h.frame]
    · show t.matrix = _
      rw [h.matrix]
      simp only [and_congr_left (exch _)]
    · intro n f r hn hf hf' hmem
      exact h.toggled n f r hn ((key f r hf').1 hf) hf' hmem
    · intro n hn hx
      exact h.kept n hn fun f r hf hr => hx f r ((key f r hr).2 hf) hr
    · show t.ftb = _
      rw [h.ftb]
      cases hf : acts .ftb <;> simp only []
      rename_i r
      simp only [key _ r hf]
    · intro f hf
      exact h.outside f (fun h' => hf ((hm f).2 (.inl h')))
    · intro f hf
      rcases (hm f).1 hf with hf | rfl
      · exact h.inside f hf
      · rw [ha]; exact hs.engine
    · rw [List.foldl_append, ← h.reports]
      simp only [List.foldl_cons, List.foldl_nil, ha]
      first | rfl | rw [← ht]; rfl

/-- A command to a set of engines acts on each engine of the set by what stood when it was delivered: the
outcome for one does not depend on the outcome for another (R37, R89). -/
theorem State.forEngines_acted (s : State) (set : EngineSet) (f : State → EngineId → State)
    (act : State → EngineId → EngineAct) (hf : ∀ u e, f u e = u.act e (act u e))
    (hs : ∀ u e, s.SameFor u e → act u e = act s e)
    (hb : ∀ e r, act s e = .completes r → r.belongsTo e) :
    s.Acted (s.forEngines set f) EngineId.all
      (fun e => if e.isIn set then act s e else .rests) := by
  have hb' : ∀ e r, (if e.isIn set then act s e else .rests) = EngineAct.completes r → r.belongsTo e := by
    intro e r h
    split at h
    · exact hb e r h
    · cases h
  have go : ∀ (l es : List EngineId) (t : State), (es ++ l).Nodup →
      s.Acted t es (fun e => if e.isIn set then act s e else .rests) →
      s.Acted (l.foldl (fun s e => if e.isIn set then f s e else s) t) (es ++ l)
        (fun e => if e.isIn set then act s e else .rests) := by
    intro l
    induction l with
    | nil => intro es t _ h; rw [List.append_nil]; exact h
    | cons e l ih =>
      intro es t hd h
      have he : e ∉ es := by
        rw [List.nodup_append] at hd
        exact fun h' => hd.2.2 e h' e List.mem_cons_self rfl
      have h' := h.snoc hb' he
      have e1 : (if e.isIn set then f t e else t) =
          t.act e (if e.isIn set then act s e else .rests) := by
        split
        · rw [hf, hs t e (h.sameFor hb' he)]
        · rfl
      rw [List.foldl_cons, e1, show es ++ e :: l = (es ++ [e]) ++ l by simp]
      exact ih _ _ (by simpa using hd) h'
  exact go EngineId.all [] s (by decide) (.nil s _)

/-- The notices that a command to a set of engines posts: those of the engines it refuses (R37). -/
theorem foldl_posts (es : List EngineId) (acts : EngineId → EngineAct) (b : EngineId → Bool)
   (x : EngineId → Notice) (f : FieldNo)
  (h1 : ∀ e, b e = true → acts e = .posts (x e)) (h2 : ∀ e y, b e = false → acts e ≠ .posts y) (r : Reports) :
  es.foldl
      (fun r e =>
        match acts e with
        | .posts x => r.notice x f
        | _ => r) r = (es.filter b).foldl (fun r e => r.notice (x e) f) r := by
  induction es generalizing r with
  | nil => rfl
  | cons e es ih =>
    rw [List.foldl_cons, ih, List.filter_cons]
    cases hb : b e
    · simp only [Bool.false_eq_true, if_false]
      congr 1
      cases ha : acts e <;> simp only []
      exact absurd ha (h2 e _ hb)
    · simp only [if_true, List.foldl_cons, h1 e hb]

/-- Where the completions among `acts` are those of `done`, the runs of `done` are completed (R90 to R93). -/
theorem State.Acted.completedRuns (s t : State) (acts) (done : EngineId → Bool) (run : EngineId → Elements)
  (h : s.Acted t EngineId.all acts)
  (h1 : ∀ e, done e = true → ∃ r, acts e = .completes r ∧ r.elements = run e)
  (h2 : ∀ e r, acts e = .completes r → done e = true) : s.completedRuns t done run := by
  have mem : ∀ e : EngineId, e ∈ EngineId.all := by intro e; cases e <;> decide
  have ex : ∀ e, (acts e).exchanges = true ↔ done e = true ∧ (run e).bkgd = true := by
    intro e
    constructor
    · intro hx
      cases ha : acts e with
      | completes r =>
        obtain ⟨r', h', h''⟩ := h1 e (h2 e r ha)
        rw [ha] at h' hx
        cases h'
        exact ⟨h2 e r ha, by rw [← h'']; exact hx⟩
      | _ => rw [ha] at hx; cases hx
    · rintro ⟨hd, hb⟩
      obtain ⟨r, h', h''⟩ := h1 e hd
      rw [h']
      show r.elements.bkgd = true
      rw [h'']; exact hb
  refine ⟨?_, ?_, ?_, ?_, ?_, ?_, ?_⟩
  · rw [h.matrix]; simp only [mem, true_and, ex]
  · intro n e hn hd hm
    obtain ⟨r, ha, hr⟩ := h1 e hd
    exact h.toggled n e r hn (mem e) ha (hr ▸ hm)
  · intro n hn hx
    refine h.kept n hn fun e r _ ha hm => ?_
    obtain ⟨r', h', h''⟩ := h1 e (h2 e r ha)
    rw [ha] at h'; cases h'
    exact hx e (h2 e r ha) (h'' ▸ hm)
  · intro hd
    rw [h.ftb]
    cases ha : acts .ftb <;> simp only []
    rw [h2 _ _ ha] at hd; cases hd
  · intro hd hf
    obtain ⟨r, ha, hr⟩ := h1 _ hd
    rw [h.ftb, ha]
    simp only [mem, if_true, hr, hf]; rfl
  · intro hd hf
    obtain ⟨r, ha, hr⟩ := h1 _ hd
    rw [h.ftb, ha]
    simp only [mem, if_true, hr, hf]; rfl
  · intro e hd
    obtain ⟨r, ha, hr⟩ := h1 _ hd
    rw [h.inside e (mem e), ha]

end Sys2Proof.Machine
end

