-- ==== Sys2Proof/Laws/Operands.lean ====
section
/-!
SUPPORT. The clamping of R28: what it leaves as it is, and that it brings a command into range once.
-/

namespace Sys2Proof

theorem clamp_bounds (x : Nat) {a b : Nat} (h : a ≤ b) : a ≤ clamp x a b ∧ clamp x a b ≤ b := by
  simp only [clamp]; omega

theorem clamp_clamp (x : Nat) {a b : Nat} (h : a ≤ b) : clamp (clamp x a b) a b = clamp x a b := by
  simp only [clamp]; omega

/-- Clamped values stay as they are when they are clamped again. -/
theorem Command.clamp_idem (c : Command) : c.clamp.clamp = c.clamp := by
  cases c <;> simp [Command.clamp, clamp_clamp]

/-- Clamping changes neither the outcome of the range and LOOP tests nor what kind of command it is. -/
theorem Command.clamp_tests (c : Command) :
    c.clamp.inRange = c.inRange ∧ c.clamp.loops = c.loops ∧ c.clamp.atArrival = c.atArrival ∧
      c.clamp.code = c.code ∧ c.clamp.subject = c.subject := by
  cases c <;> simp [Command.clamp, Command.inRange, Command.loops, Command.atArrival, Command.code,
    Command.subject]

/-- A command that has passed tests 3 and 4 of R26 is admissible once it is clamped. -/
theorem Command.clamp_admissible (c : Command) (hr : c.inRange = true) (hl : c.loops = false) :
    c.clamp.admissible = true := by
  simp [Command.admissible, c.clamp_tests.1, c.clamp_tests.2.1, hr, hl, c.clamp_idem]

end Sys2Proof
end

