-- ==== Sys2Proof/Laws/Timing.lean ====
section
/-!
SUPPORT. The Timing Unit (chapter 1), one lemma for each of its moments that says when it is taken and
what state it is acted on in.
-/

namespace Sys2Proof.Machine

open Sys2Proof

theorem Format.interlaced_iff (f : Format) : f.interlaced = true ↔ f = .interlaced1080 := by
  cases f <;> simp [Format.interlaced]

/-- The Timing Unit as an accepted field pulse finds it, its reference field begun (R2). -/
def Timing.atPulse (t : Timing) (ticks : Nat) (opens : Parity) : Timing :=
  { t with
    sinceField := t.sinceField + ticks
    refSeen := true
    silent := false
    sinceRef := 0
    refLines := 0
    refPrev := if t.refSeen then some t.refParity else none
    refParity := opens }

/-- The reference field that a field pulse ends is correct (R2). -/
def Timing.endsCorrect (t : Timing) (lines : Nat) : Prop :=
  t.refLines + lines = nominalLines t.format t.refParity ∧
    (t.format = .interlaced1080 → t.refPrev ≠ some t.refParity)

theorem Timing.fieldCorrect_iff (t : Timing) (ticks lines : Nat) :
    ({ t.advance ticks with refLines := t.refLines + lines } : Timing).fieldCorrect = true ↔
      t.endsCorrect lines := by
  simp only [Timing.fieldCorrect, Timing.advance, Timing.endsCorrect, Bool.and_eq_true, beq_iff_eq]
  refine and_congr_right fun _ => ?_
  cases t.format <;> simp [Format.interlaced]
  cases t.refPrev <;> simp

/-- An accepted field pulse is a reference field start, judged by the reference field it ends (R2). -/
theorem State.fieldPulse_accepted (s : State) (ticks lines : Nat) (opens : Parity)
    (h : s.timing.refSeen = false ∨
      nominalTicks s.timing.format s.timing.refParity ≤ 2 * (s.timing.sinceRef + ticks)) :
    ∃ correct : Bool, (correct = true ↔ s.timing.endsCorrect lines) ∧
      s.fieldPulse ticks lines opens =
        { s with timing := s.timing.atPulse ticks opens }.referenceStart correct
          (s.timing.sinceRef + ticks) := by
  refine ⟨_, s.timing.fieldCorrect_iff ticks lines, ?_⟩
  have ha : ({ s.timing.advance ticks with refLines := s.timing.refLines + lines } :
      Timing).acceptsPulse = true := by
    refine Bool.or_eq_true_iff.2 (h.imp (fun h => ?_) decide_eq_true)
    show (!s.timing.refSeen) = true
    rw [h]; rfl
  simp only [State.fieldPulse, if_pos ha]
  rfl

/-- A rejected field pulse lets the clock and the line pulses run on, and nothing else (R2). -/
theorem State.fieldPulse_rejected (s : State) (ticks lines : Nat) (opens : Parity)
    (h1 : s.timing.refSeen = true)
    (h2 : 2 * (s.timing.sinceRef + ticks) < nominalTicks s.timing.format s.timing.refParity) :
    s.fieldPulse ticks lines opens =
      { s with
        timing :=
          { s.timing with
            sinceField := s.timing.sinceField + ticks
            sinceRef := s.timing.sinceRef + ticks
            refLines := s.timing.refLines + lines } } := by
  have ha : ({ s.timing.advance ticks with refLines := s.timing.refLines + lines } :
      Timing).acceptsPulse = false := by
    refine (Bool.or_eq_false_iff).2 ⟨?_, decide_eq_false (Nat.not_le.2 h2)⟩
    show (!s.timing.refSeen) = false
    rw [h1]; rfl
  exact if_neg (by rw [ha]; decide)

/-- HOLDOVER entered while the held period has not passed (R6). -/
theorem State.enterHoldover_waits (s : State) (cause : HoldoverCause)
    (h : s.timing.sinceField < (s.timing.period1 + s.timing.period2) / 2) :
    s.enterHoldover cause =
      { s with timing := s.timing.enterHoldover }.postCondition .refLost 0 (holdoverDetail cause) := by
  have h' : ¬ (s.timing.period1 + s.timing.period2) / 2 ≤ s.timing.sinceField := by omega
  exact if_neg h'

/-- HOLDOVER entered when the held period has passed: a field starts at once (R6). -/
theorem State.enterHoldover_starts (s : State) (cause : HoldoverCause)
    (h : (s.timing.period1 + s.timing.period2) / 2 ≤ s.timing.sinceField) :
    s.enterHoldover cause =
      ({ s with timing := s.timing.enterHoldover }.postCondition .refLost 0
        (holdoverDetail cause)).startField := by
  exact if_pos h

/-- An aligned field start takes the field counter like every other (R1, R5). -/
theorem State.alignedStart_numbers (s : State) :
    s.alignedStart.timing.field = s.timing.counter ∧
      s.alignedStart.timing.counter = s.timing.counter + 1 ∧
      s.alignedStart.timing.wrong = s.timing.wrong := by
  exact ⟨(State.startField_numbers _).1, (State.startField_numbers _).2.1,
    (State.startField_numbers _).2.2.2.2.1⟩

/-! ### The rows that raise an output field start -/

/-- `u` has the reports of `s`, with REF_LOST posted where HOLDOVER has been entered from LOCKED (R6). -/
def State.lostAt (s u : State) : Prop :=
  (s.timing.ref ≠ .locked ∨ u.timing.ref ≠ .holdover → u.reports = s.reports) ∧
    (s.timing.ref = .locked → u.timing.ref = .holdover →
      ∃ cause : Int, (cause = 0 ∨ cause = 1) ∧
        u.reports = s.reports.post .refLost 0 cause s.timing.field)

theorem State.lostAt.kept {s u : State} (h : s.timing.ref ≠ .locked ∨ u.timing.ref ≠ .holdover)
    (h' : u.reports = s.reports) : s.lostAt u :=
  ⟨fun _ => h', fun a b => absurd h (by simp [a, b])⟩

theorem State.lostAt.lost {s u : State} (h : s.timing.ref = .locked) (h' : u.timing.ref = .holdover)
    (hp : ∃ cause : Int, (cause = 0 ∨ cause = 1) ∧
      u.reports = s.reports.post .refLost 0 cause s.timing.field) : s.lostAt u :=
  ⟨fun a => absurd a (by simp [h, h']), fun _ _ => hp⟩

/-- A second correct reference field in LOCKING, at a start that may be the aligned field start, raises an
output field start (R4, R5). -/
theorem State.referenceStart_aligns (s : State) (period : Nat) (hr : s.timing.ref = .locking)
    (hg : 1 ≤ s.timing.good)
    (hh : nominalTicks s.timing.format s.timing.parity ≤ 2 * s.timing.sinceField) :
    ∃ v : State, s.referenceStart true period = v.startField ∧
      v = { s with timing := v.timing, reports := v.reports } ∧
      v.timing.counter = s.timing.counter ∧ v.timing.format = s.timing.format ∧
      v.timing.ref = .locked ∧ v.reports = s.reports := by
  unfold State.referenceStart
  simp only [hr, if_true]
  rw [if_pos (Nat.succ_le_succ hg), State.lockAtStart]
  have hm : (({ s.timing.recordPeriod period with good := s.timing.good + 1 } :
      Timing).enterLocked).mayAlign = true := decide_eq_true hh
  rw [if_pos hm]
  exact ⟨_, rfl, rfl, rfl, rfl, rfl, rfl⟩

/-- A start followed outside the search, or in it where it may be the aligned field start, raises an
output field start (R5, R6). -/
theorem State.followStart_starts (s : State)
    (h : s.timing.aligning = false ∨
      nominalTicks s.timing.format s.timing.parity ≤ 2 * s.timing.sinceField) :
    ∃ v : State, s.followStart = v.startField ∧
      v = { s with timing := v.timing, reports := v.reports } ∧
      v.timing.counter = s.timing.counter ∧ v.timing.format = s.timing.format ∧
      v.timing.ref = s.timing.ref ∧ v.reports = s.reports := by
  unfold State.followStart
  by_cases ha : s.timing.aligning = true
  · have hm : s.timing.mayAlign = true := decide_eq_true (h.resolve_left (by simp [ha]))
    rw [if_pos ha, if_pos hm]
    exact ⟨_, rfl, rfl, rfl, rfl, rfl, rfl⟩
  · rw [if_neg ha]
    exact ⟨s, rfl, rfl, rfl, rfl, rfl, rfl⟩

/-- A reference field start in LOCKED that ends a correct reference field, or the first incorrect one,
is followed (R6). -/
theorem State.referenceStart_follows (s : State) (correct : Bool) (period : Nat)
    (hr : s.timing.ref = .locked) (hc : correct = true ∨ s.timing.wrong = 0)
    (h : s.timing.aligning = false ∨
      nominalTicks s.timing.format s.timing.parity ≤ 2 * s.timing.sinceField) :
    ∃ v : State, s.referenceStart correct period = v.startField ∧
      v = { s with timing := v.timing, reports := v.reports } ∧
      v.timing.counter = s.timing.counter ∧ v.timing.format = s.timing.format ∧
      v.timing.ref = s.timing.ref ∧ v.reports = s.reports := by
  cases correct with
  | true =>
    have e : s.referenceStart true period =
        ({ s with timing := { s.timing.recordPeriod period with wrong := 0 } } : State).followStart := by
      simp only [State.referenceStart, hr, if_true]
    rw [e]
    exact State.followStart_starts
      { s with timing := { s.timing.recordPeriod period with wrong := 0 } } h
  | false =>
    have hw : ¬2 ≤ s.timing.wrong + 1 := by rw [hc.resolve_left (by simp)]; decide
    have e : s.referenceStart false period =
        ({ s with timing := { s.timing with wrong := s.timing.wrong + 1 } } : State).followStart := by
      simp only [State.referenceStart, hr, Bool.false_eq_true, if_false, hw]
    rw [e]
    exact State.followStart_starts
      { s with timing := { s.timing with wrong := s.timing.wrong + 1 } } h

/-- A second incorrect reference field in LOCKED whose end the held period has passed raises an output field
start in HOLDOVER (R6). -/
theorem State.referenceStart_leaves (s : State) (period : Nat) (hr : s.timing.ref = .locked)
    (hw : 1 ≤ s.timing.wrong)
    (h : (s.timing.period1 + s.timing.period2) / 2 ≤ s.timing.sinceField) :
    ∃ v : State, s.referenceStart false period = v.startField ∧
      v = { s with timing := v.timing, reports := v.reports } ∧
      v.timing.counter = s.timing.counter ∧ v.timing.format = s.timing.format ∧
      v.timing.ref = .holdover ∧ v.reports = s.reports.post .refLost 0 1 s.timing.field := by
  unfold State.referenceStart
  simp only [hr, Bool.false_eq_true, if_false]
  rw [if_pos (Nat.succ_le_succ hw)]
  exact ⟨_, State.enterHoldover_starts
    { s with timing := { s.timing with wrong := s.timing.wrong + 1 } } _ h, rfl, rfl, rfl, rfl, rfl⟩

/-- Every row that raises an output field start runs `startField` on a state that differs from the one it is
taken in by the Timing Unit and the reports alone, with the same field counter and format, and where it
enters HOLDOVER from LOCKED with REF_LOST (R1, R3, R5, R6). -/
theorem State.startsField_exec (i : Instr) (s : State) (h : s.startsField i) :
    ∃ u : State, exec i s = .next u.startField ∧
      u = { s with timing := u.timing, reports := u.reports } ∧
      u.timing.counter = s.timing.counter ∧ u.timing.format = s.timing.format ∧ s.lostAt u := by
  have holdover : ∀ (u : State) (cause : HoldoverCause),
      (u.timing.period1 + u.timing.period2) / 2 ≤ u.timing.sinceField →
      u = { s with timing := u.timing, reports := u.reports } →
      u.timing.counter = s.timing.counter → u.timing.format = s.timing.format →
      u.reports = s.reports → u.timing.field = s.timing.field → s.timing.ref = .locked →
      ∃ v : State, u.enterHoldover cause = v.startField ∧
        v = { s with timing := v.timing, reports := v.reports } ∧
        v.timing.counter = s.timing.counter ∧ v.timing.format = s.timing.format ∧ s.lostAt v := by
    intro u cause hp hu hc hf hr hn hl
    refine ⟨_, u.enterHoldover_starts cause hp, ?_, hc, hf, .lost hl rfl ?_⟩
    case refine_2 =>
      refine ⟨holdoverDetail cause, by cases cause <;> simp [holdoverDetail], ?_⟩
      rw [← hr, ← hn]
      rfl
    conv_lhs => rw [hu]
    rfl
  have aligned : ∀ u : State, u = { s with timing := u.timing, reports := u.reports } →
      u.timing.counter = s.timing.counter → u.timing.format = s.timing.format →
      u.reports = s.reports → u.timing.ref ≠ .holdover →
      ∃ v : State, u.alignedStart = v.startField ∧
        v = { s with timing := v.timing, reports := v.reports } ∧
        v.timing.counter = s.timing.counter ∧ v.timing.format = s.timing.format ∧ s.lostAt v := by
    intro u hu hc hf hr hn
    refine ⟨_, rfl, ?_, hc, hf, .kept (.inr hn) hr⟩
    conv_lhs => rw [hu]
  cases i with
  | outputFieldStart =>
    refine ⟨{ s with timing := s.timing.advance (s.timing.fieldPeriod - s.timing.sinceField) },
      ?_, rfl, rfl, rfl, .kept (.inl h) rfl⟩
    show Host.Outcome.next s.periodExpires = _
    rw [State.periodExpires, if_neg h]
  | alignmentSearchTimeout =>
    have hx : s.searchTimeout = _ := if_pos h
    exact ⟨_, congrArg Host.Outcome.next hx, rfl, rfl, rfl,
      .kept (.inr (by show s.timing.ref ≠ _; rw [h.1]; simp)) rfl⟩
  | silence =>
    obtain ⟨h1, h2, h3⟩ := h
    simp only [exec, execSilence, State.silence, h1, h2, Bool.false_eq_true, if_false]
    obtain ⟨v, hv, hv'⟩ := holdover
      { s with
        timing :=
          { s.timing.advance
              (2 * nominalTicks s.timing.format s.timing.refParity - s.timing.sinceRef) with
            silent := true } }
      .silence h3 rfl rfl rfl rfl rfl h2
    exact ⟨v, congrArg _ hv, hv'⟩
  | enterLocked =>
    obtain ⟨h1, h2, h3, h4⟩ := h
    simp only [exec, execEnterLocked, h1, if_true, h2, h3, and_self]
    unfold State.lockAtStart
    rw [if_pos (by exact decide_eq_true h4)]
    obtain ⟨v, hv, hv'⟩ := aligned { s with timing := s.timing.enterLocked } rfl rfl rfl rfl
      (by simp [Timing.enterLocked])
    exact ⟨v, congrArg _ hv, hv'⟩
  | enterHoldover cause =>
    obtain ⟨h1, h2⟩ := h
    simp only [exec, execEnterHoldover, h1, if_true]
    cases cause with
    | silence =>
      obtain ⟨v, hv, hv'⟩ := holdover { s with timing := { s.timing with silent := true } }
        .silence h2 rfl rfl rfl rfl rfl h1
      exact ⟨v, congrArg _ hv, hv'⟩
    | incorrectFields =>
      obtain ⟨v, hv, hv'⟩ := holdover { s with timing := { s.timing with wrong := 2 } }
        .incorrectFields h2 rfl rfl rfl rfl rfl h1
      exact ⟨v, congrArg _ hv, hv'⟩
  | fieldPulse ticks lines opens =>
    obtain ⟨ha, c, half, held, hc, hhalf, hheld, hcase⟩ := h
    obtain ⟨correct, hcor, heq⟩ := s.fieldPulse_accepted ticks lines opens ha
    have hcc : correct = true ↔ c := hcor.trans hc.symm
    have hx : exec (.fieldPulse ticks lines opens) s = .next (s.fieldPulse ticks lines opens) := rfl
    rw [hx, heq]
    generalize hu : ({ s with timing := s.timing.atPulse ticks opens } : State) = u
    have ht : u.timing = s.timing.atPulse ticks opens := by rw [← hu]
    have hp : s.timing.sinceField + ticks = u.timing.sinceField := by rw [ht]; rfl
    have huf : u = { s with timing := u.timing, reports := u.reports } := by rw [← hu]
    have hur : u.reports = s.reports := by rw [← hu]
    have huf' : u.timing.field = s.timing.field := by rw [ht]; rfl
    have hucf : u.timing.counter = s.timing.counter ∧ u.timing.format = s.timing.format ∧
      u.timing.ref = s.timing.ref ∧ u.timing.good = s.timing.good ∧
      u.timing.wrong = s.timing.wrong ∧ u.timing.aligning = s.timing.aligning ∧
      u.timing.parity = s.timing.parity ∧ u.timing.period1 = s.timing.period1 ∧
      u.timing.period2 = s.timing.period2 := by
      rw [ht]; exact ⟨rfl, rfl, rfl, rfl, rfl, rfl, rfl, rfl, rfl⟩
    clear hu heq ht
    obtain ⟨h1, h2, h3, h4, h5, h6, h7, h8, h9⟩ := hucf
    rw [hp, ← h2, ← h7] at hhalf
    rw [hp, ← h8, ← h9] at hheld
    rw [← h3, ← h4, ← h5, ← h6] at hcase
    obtain ⟨v, hv, hv'⟩ : ∃ v : State, u.referenceStart correct (s.timing.sinceRef + ticks) = v.startField ∧
        v = { u with timing := v.timing, reports := v.reports } ∧
        v.timing.counter = u.timing.counter ∧ v.timing.format = u.timing.format ∧ u.lostAt v := by
      obtain ⟨hr, g1, g2, g3⟩ | ⟨hr, g1, g2⟩ | ⟨hr, g1, g2, g3⟩ := hcase
      · rw [hcc.2 g1]
        obtain ⟨v, a, b, c, d, e, f⟩ := u.referenceStart_aligns (s.timing.sinceRef + ticks) hr g2 (hhalf.1 g3)
        exact ⟨v, a, b, c, d, .kept (.inr (by rw [e]; simp)) f⟩
      · obtain ⟨v, a, b, c, d, e, f⟩ := u.referenceStart_follows correct (s.timing.sinceRef + ticks) hr
          (g1.imp hcc.2 id) (g2.imp id hhalf.1)
        exact ⟨v, a, b, c, d, .kept (.inr (by rw [e, hr]; simp)) f⟩
      · have hb : correct = false := by
          cases hb : correct with
          | true => exact absurd (hcc.1 hb) g1
          | false => rfl
        rw [hb]
        obtain ⟨v, a, b, c, d, e, f⟩ := u.referenceStart_leaves (s.timing.sinceRef + ticks) hr g2 (hheld.1 g3)
        exact ⟨v, a, b, c, d, .lost hr e ⟨1, .inr rfl, f⟩⟩
    refine ⟨v, congrArg _ hv, ?_, hv'.2.1.trans h1, hv'.2.2.1.trans h2, ?_⟩
    · conv_lhs => rw [hv'.1]
      rw [huf]
    · have hl := hv'.2.2.2
      rw [State.lostAt, hur, huf', h3] at hl
      exact hl
  | _ => exact h.elim

end Sys2Proof.Machine
end

