-- ==== Sys2Proof/Laws/Receiver.lean ====
section
/-!
SUPPORT. The Command Receiver and the Pending List (chapter 2): what an insertion, a removal and the
clamping of R28 do, said once each.
-/

namespace Sys2Proof.Machine

open Sys2Proof

/-! ### Insertion (R33) -/

/-- An insertion adds the entry and nothing else. -/
theorem insertEntry_perm (n : FieldNo) (e : Entry) (l : List Entry) :
    (insertEntry n e l).Perm (e :: l) := by
  induction l with
  | nil => exact .refl _
  | cons h rest ih =>
    rw [insertEntry]
    split
    · exact (ih.cons h).trans (.swap e h rest)
    · exact .refl _

theorem mem_insertEntry (n : FieldNo) (e x : Entry) (l : List Entry) :
    x ∈ insertEntry n e l ↔ x = e ∨ x ∈ l := by
  rw [(insertEntry_perm n e l).mem_iff, List.mem_cons]

theorem length_insertEntry (n : FieldNo) (e : Entry) (l : List Entry) :
    (insertEntry n e l).length = l.length + 1 := by
  rw [(insertEntry_perm n e l).length_eq, List.length_cons]

/-- An insertion keeps the list in order of due field, read forward from `n`. -/
theorem insertEntry_ordered (n : FieldNo) (e : Entry) (l : List Entry)
    (h : l.Pairwise fun a b => ahead n a.due ≤ ahead n b.due) :
    (insertEntry n e l).Pairwise fun a b => ahead n a.due ≤ ahead n b.due := by
  induction l with
  | nil => simp [insertEntry]
  | cons x rest ih =>
    obtain ⟨hx, hr⟩ := List.pairwise_cons.1 h
    rw [insertEntry]
    split
    · refine List.pairwise_cons.2 ⟨fun y hy => ?_, ih hr⟩
      rcases (mem_insertEntry n e y rest).1 hy with rfl | hy
      · assumption
      · exact hx y hy
    · rename_i hlt
      refine List.pairwise_cons.2 ⟨fun y hy => ?_, h⟩
      rcases List.mem_cons.1 hy with rfl | hy
      · omega
      · have := hx y hy; omega

/-- The whole of what a classified command does when it is offered (R28, R31, R33, R34). -/
theorem State.offer_cases (s : State) (tag : Tag) (c : Command) (due : FieldNo) (clamped late : Bool) :
    (64 ≤ s.waiting.entries.length ∧
      s.offer tag c due clamped late = s.postNotice tag c.code .queueFull c.subject) ∨
    (s.waiting.entries.length < 64 ∧
      s.offer tag c due clamped late =
        { s with
          waiting := (s.offer tag c due clamped late).waiting
          reports := (s.offer tag c due clamped late).reports } ∧
      (s.offer tag c due clamped late).waiting.entries =
        insertEntry s.timing.counter ⟨c, tag, due⟩ s.waiting.entries ∧
      (s.offer tag c due clamped late).waiting.hold =
        (s.waiting.hold || decide (48 ≤ s.waiting.entries.length + 1))) := by
  unfold State.offer
  by_cases h : 64 ≤ s.waiting.entries.length
  · exact .inl ⟨h, if_pos h⟩
  · refine .inr ⟨by omega, ?_⟩
    rw [if_neg h]
    simp only [State.holdAfterInsertion, State.noticeIf_waiting, State.noticeIf_timing,
      length_insertEntry]
    by_cases hh : 48 ≤ s.waiting.entries.length + 1 ∧ s.waiting.hold = false
    · rw [if_pos hh]
      cases clamped <;> cases late <;> simp [State.noticeIf, State.postNotice, State.postCondition, hh]
    · rw [if_neg hh]
      have hb : 47 ≤ s.waiting.entries.length → s.waiting.hold = true := by
        intro h'
        cases hw : s.waiting.hold with
        | true => rfl
        | false => exact absurd ⟨by omega, hw⟩ hh
      cases clamped <;> cases late <;> simpa [State.noticeIf, State.postNotice] using hb

/-! ### Removal (R34) -/

theorem PendingList.holdAfterRemoval_entries (w : PendingList) :
    w.holdAfterRemoval.entries = w.entries := by
  unfold PendingList.holdAfterRemoval; split <;> rfl

theorem PendingList.holdAfterRemoval_hold (w : PendingList) :
    w.holdAfterRemoval.hold = (w.hold && decide (32 < w.entries.length)) := by
  unfold PendingList.holdAfterRemoval
  split
  · have h : ¬ 32 < w.entries.length := by omega
    simp [h]
  · have h : 32 < w.entries.length := by omega
    simp [h]

/-! ### Validation (R26) -/

/-- What a validated arrival has passed (R26). -/
theorem validate_passed {p : List Byte} {c : Command} {due : Option FieldNo}
    (h : validate p = .passed c due) :
    knownKind (byteAt p 0) = true ∧ payloadLength p = some p.length ∧ timingOf p = some due ∧
      decodeCommand p = some c ∧ c.inRange = true ∧ c.loops = false := by
  unfold validate at h
  split at h
  · exact Validation.noConfusion h
  rename_i hk
  split at h
  · exact Validation.noConfusion h
  rename_i hl
  split at h
  · rename_i due' c' ht hd
    split at h
    · exact Validation.noConfusion h
    rename_i hr
    split at h
    · exact Validation.noConfusion h
    rename_i hlo
    injection h with h1 h2
    subst h1; subst h2
    simp only [Bool.not_eq_false, ne_eq, not_not, Bool.not_eq_true] at hk hl hr hlo
    exact ⟨hk, hl, ht, hd, hr, hlo⟩
  · exact Validation.noConfusion h

end Sys2Proof.Machine
end

