-- ==== Sys2Proof/Laws/Lanes.lean ====
section
/-!
SUPPORT. The Lane Receivers (chapter 1): what a lane field start, a received line and the watch do to the
named lane, and that they touch no other.
-/

namespace Sys2Proof.Machine

open Sys2Proof

/-- What a lane field start does beside its judgement, field by field (R9, R16, R18). -/
theorem Lane.opened_fields (l : Lane) (m : LaneMatch) (b : Bool) (p : Parity) :
    (l.opened m b p).state = l.state ∧ (l.opened m b p).lateness = l.lateness ∧
    (l.opened m b p).candidate = l.candidate ∧ (l.opened m b p).matchCount = l.matchCount ∧
    (l.opened m b p).delay = l.delay ∧ (l.opened m b p).slip = l.slip ∧
    (l.opened m b p).mismatch = l.mismatch ∧ (l.opened m b p).bad = 0 ∧
    (l.opened m b p).missed = l.missed ∧ (l.opened m b p).settings = l.settings ∧
    (l.opened m b p).limitInForce = l.settings.limit ∧
    (l.opened m b p).swapInForce = l.settings.swap ∧ (l.opened m b p).lines = 0 ∧
    (l.opened m b p).unjudged = false ∧ (l.opened m b p).seen = true := by
  unfold Lane.opened
  cases b <;> simp only [Bool.false_eq_true, if_false, if_true] <;> split <;>
    exact ⟨rfl, rfl, rfl, rfl, rfl, rfl, rfl, rfl, rfl, rfl, rfl, rfl, rfl, rfl, rfl⟩

/-- The judgement of a lane field start of lane record `l`, taken `elapsed` line periods into the output
field in progress (R9 to R15). -/
def Lane.judgedAt (l : Lane) (t : Timing) (elapsed : Nat) : Judgement :=
  l.judge t.format (measuredLateness (nominalLines t.format t.parity) elapsed)
    (if matchesNext (nominalLines t.format t.parity) elapsed then l.matchedNext
      else l.matchedCurrent).isSome

/-- What stands in the lane record after a lane field start: the judgement's values, the counts at 0 and
the settings in force (R9, R12 to R16, R18). -/
theorem Lane.afterStart_fields (l : Lane) (t : Timing) (elapsed : Nat) :
    (l.afterStart t elapsed).posts = (l.judgedAt t elapsed).posts ∧
    (l.afterStart t elapsed).lane.state = (l.judgedAt t elapsed).lane.state ∧
    (l.afterStart t elapsed).lane.lateness = (l.judgedAt t elapsed).lane.lateness ∧
    (l.afterStart t elapsed).lane.candidate = (l.judgedAt t elapsed).lane.candidate ∧
    (l.afterStart t elapsed).lane.matchCount = (l.judgedAt t elapsed).lane.matchCount ∧
    (l.afterStart t elapsed).lane.delay = (l.judgedAt t elapsed).lane.delay ∧
    (l.afterStart t elapsed).lane.slip = (l.judgedAt t elapsed).lane.slip ∧
    (l.afterStart t elapsed).lane.mismatch = (l.judgedAt t elapsed).lane.mismatch ∧
    (l.afterStart t elapsed).lane.bad = 0 ∧
    (l.afterStart t elapsed).lane.missed = (l.judgedAt t elapsed).lane.missed ∧
    (l.afterStart t elapsed).lane.settings = (l.judgedAt t elapsed).lane.settings ∧
    (l.afterStart t elapsed).lane.limitInForce = (l.judgedAt t elapsed).lane.settings.limit ∧
    (l.afterStart t elapsed).lane.swapInForce = (l.judgedAt t elapsed).lane.settings.swap ∧
    (l.afterStart t elapsed).lane.lines = 0 ∧
    (l.afterStart t elapsed).lane.unjudged = false ∧
    (l.afterStart t elapsed).lane.seen = true := by
  refine ⟨rfl, ?_⟩
  simp only [Lane.afterStart]
  split <;> exact Lane.opened_fields (l.judgedAt t elapsed).lane _ _ _

/-- A lane field start changes the named lane, for lane C the Command Receiver's counts, and the
conditions it posts (R9, R23). -/
theorem State.laneFieldStart_effect (s : State) {n : Nat} (hn : isLane n = true) (elapsed : Nat) :
    s.laneFieldStart n elapsed =
      { s with
        lanes := (s.laneFieldStart n elapsed).lanes
        receiver := (s.laneFieldStart n elapsed).receiver
        reports := (s.laneFieldStart n elapsed).reports } ∧
    (s.laneFieldStart n elapsed).lane n = ((s.lane n).afterStart s.timing elapsed).lane ∧
    (∀ m, isLane m = true → m ≠ n → (s.laneFieldStart n elapsed).lane m = s.lane m) ∧
    (n ≠ 25 → (s.laneFieldStart n elapsed).receiver = s.receiver) ∧
    (n = 25 → (s.laneFieldStart n elapsed).receiver.taken = 0 ∧
      (s.laneFieldStart n elapsed).receiver.dropped = 0) ∧
    (s.laneFieldStart n elapsed).reports =
      (s.postConditions n ((s.lane n).afterStart s.timing elapsed).posts).reports := by
  have hp : ∀ (ps : List (ConditionKind × Int)) (u : State),
      u.postConditions n ps = { u with reports := (u.postConditions n ps).reports } := by
    intro ps
    induction ps with
    | nil => intro u; rfl
    | cons p ps ih =>
      intro u
      simp only [State.postConditions]
      rw [ih]
      rfl
  have hr : ∀ (ps : List (ConditionKind × Int)) (u v : State), u.reports = v.reports →
      u.timing = v.timing → (u.postConditions n ps).reports = (v.postConditions n ps).reports := by
    intro ps
    induction ps with
    | nil => intro u v h _; exact h
    | cons p ps ih =>
      intro u v h h'
      simp only [State.postConditions]
      refine ih _ _ ?_ h'
      simp only [State.postCondition_reports, h, h']
  have hl : ∀ (u : State) (r : Receiver) (rep : Reports) (m : Nat),
      ({ u with receiver := r, reports := rep } : State).lane m = u.lane m := fun _ _ _ _ => rfl
  simp only [State.laneFieldStart, hn, if_true]
  rw [hp]
  by_cases hc : n = laneC
  · subst hc
    rw [if_pos rfl]
    refine ⟨rfl, s.lane_setLane_same hn _, fun m hm h => s.lane_setLane_ne hn hm (Ne.symm h) _,
      fun h => absurd rfl h, fun _ => ⟨rfl, rfl⟩, ?_⟩
    exact hr _ _ _ rfl rfl
  · rw [if_neg hc]
    refine ⟨rfl, s.lane_setLane_same hn _, fun m hm h => s.lane_setLane_ne hn hm (Ne.symm h) _,
      fun _ => ?_, fun h => absurd h hc, ?_⟩
    · exact if_neg fun h => hc h.1
    · exact hr _ _ _ rfl rfl

/-! ### The Command Receiver behind lane C (R23, R24) -/

theorem LaneState.takesPackets_false (x : LaneState) : x.takesPackets = false ↔ x ≠ .timed ∧ x ≠ .untimed := by
  cases x <;> simp [LaneState.takesPackets]

/-- A lane record replaced: the Command Receiver is then the one that the lane's state leaves (R24). -/
theorem State.setLane_reception (s : State) (n : Nat) (l : Lane) (hn : isLane n = true) (t : State) 
   (hl : (t.lane n).state = l.state) :
   (s.setLane n l).receiver = s.receptionAfter t n := by
  simp only [State.setLane, State.receptionAfter, laneC]
  by_cases h : n = 25
  · subst h; simp only [hl, LaneState.takesPackets_false]
  · simp [h]

/-- A lane-C field start returns the taken and dropped counts to 0, and a packet in reception stays unless
lane C then takes none (R23, R24). -/
theorem State.laneFieldStart_reception (s : State) (n el : Nat) (hn : isLane n = true) (h : n = 25) :
   (s.laneFieldStart n el).receiver =
     { s.receptionAfter (s.laneFieldStart n el) n with taken := 0, dropped := 0 } := by
  have h1 := (s.laneFieldStart_effect hn el).2.1
  rw [← State.setLane_reception s n ((s.lane n).afterStart s.timing el).lane hn _ (by rw [h1])]
  have hp : ∀ (ps : List (ConditionKind × Int)) (u : State),
      (u.postConditions n ps).receiver = u.receiver := by
    intro ps
    induction ps with
    | nil => intro u; rfl
    | cons p ps ih => intro u; simp only [State.postConditions]; rw [ih]; rfl
  simp only [State.laneFieldStart, hn, if_true]
  rw [if_pos (show n = laneC from h)]
  show { (State.postConditions _ n _).receiver with taken := 0, dropped := 0 } = _
  rw [hp]

/-- A received line keeps the Command Receiver's counts, and a packet in reception unless lane C then takes
none (R16, R24). -/
theorem State.laneLine_reception (s : State) (n : Nat) (x : Line) (c : LinkWord) (hn : isLane n = true)
   (hd : (s.lane n).state ≠ .down) : (s.laneLine n x c).receiver = s.receptionAfter (s.laneLine n x c) n := by
  simp only [State.laneLine]
  rw [if_pos ⟨hn, hd⟩]
  split
  · split
    · simp only [State.laneErrorsReached, State.postCondition_receiver]
      generalize hu : State.postCondition _ _ _ _ = u
      have hl : (u.lane n).state = .seek := by
        rw [← hu]
        show (State.lane (State.setLane _ _ _) n).state = _
        rw [State.lane_setLane_same _ hn]
      rw [← State.setLane_reception s n (u.lane n) hn u rfl]
      by_cases h : n = 25
      · subst h
        simp [State.setLane, laneC, hl, LaneState.takesPackets]
        split <;> simp
      · simp [State.setLane, laneC, h]
    · exact State.setLane_reception s n _ hn _ (by rw [State.lane_setLane_same _ hn])
  · exact State.setLane_reception s n _ hn _ (by rw [State.lane_setLane_same _ hn])

end Sys2Proof.Machine
end

