-- ==== Sys2Proof/Laws/Pictures.lean ====
section
/-!
SUPPORT. The pictures of a field (chapters 6 to 8): the mix of samples at its ends, what a field start
takes for its pictures, and that the outputs depend on the state through those things alone.
-/

namespace Sys2Proof.Machine

open Sys2Proof

/-! ### Mixes (R123) -/

theorem mix_zero (p q : Nat) : mix p q 0 = p := by unfold mix; omega

theorem mix_full (p q : Nat) : mix p q 1024 = q := by unfold mix; omega

/-- At coefficient 0 the mix is the first sample, unfilled places included. -/
@[simp] theorem Sample.mix_zero (p q : Sample) : Sample.mix p q 0 = p := by
  simp [Sample.mix, Machine.mix_zero]

/-- At coefficient 1024 the mix is the second sample, unfilled places included. -/
@[simp] theorem Sample.mix_full (p q : Sample) : Sample.mix p q 1024 = q := by
  simp [Sample.mix, Machine.mix_full]

@[simp] theorem Sample.mix_value (p q : Sample) (k : Nat) :
    (Sample.mix p q k).value = (p.value * (1024 - k) + q.value * k + 512) / 1024 := rfl

/-! ### What a field start takes (R63, R74, R144) -/

theorem State.lane_asShown (s : State) (n : Nat) :
    (s.asShown.lane n).decision = (s.lane n).decision ∧
      (s.asShown.lane n).pictureCurrent = (s.lane n).pictureCurrent := by
  simp only [State.lane, State.asShown, look_changeAll]
  split
  · exact ⟨rfl, rfl⟩
  · rename_i h
    rw [look_of_le _ (Nat.le_of_not_lt h)]
    exact ⟨rfl, rfl⟩

/-- The substitute that a lane shows is the one of its settings at the field start. -/
theorem State.substitute_asShown (s : State) {n : Nat} (h : isLane n = true) :
    (s.asShown.lane n).settings.substitute = look s.picture.substitutes (n - 1) .black := by
  have hn : n - 1 < 25 := by simp [isLane] at h; omega
  simp only [State.lane, State.asShown, look_changeAll, if_pos hn]

/-- Right after the pictures of a field are taken the state is what they show. -/
theorem State.asShown_takePicture (s : State) : s.takePicture.asShown = s.takePicture := by
  have h : changeAll
      (fun i l =>
        { l with
          settings :=
            { l.settings with
              substitute := look (s.lanes.map (·.settings.substitute)) i .black } })
      s.lanes = s.lanes := by
    refine ext_look Lane.reset fun i hi => ?_
    rw [look_changeAll, if_pos hi]
    have : look (s.lanes.map (·.settings.substitute)) i .black =
        (look s.lanes i Lane.reset).settings.substitute := by
      rw [look_of_lt _ hi, look_of_lt _ hi, Vector.getElem_map]
    rw [this]
  simp only [State.asShown, State.takePicture, h]

/-- A field start leaves the outputs on the state it reaches (R63, R144). -/
theorem State.asShown_startField (s : State) : s.startField.asShown = s.startField := by
  unfold State.startField
  generalize s.beginField.watchLanes.applyBypass.releaseDue.stepEngines.exchange.decideLanes = u
  have h := u.asShown_takePicture
  exact congrArg (fun v : State => v.formTally.takeStatus) h

/-! ### What the outputs depend on (R74) -/

/-- Two states hold the same of everything that the pictures of a field are formed from. -/
structure State.LooksLike (s t : State) : Prop where
  timing : s.timing = t.timing
  buses : s.matrix.buses = t.matrix.buses
  bypass : s.matrix.bypass = t.matrix.bypass
  shapes : s.tables.shapes = t.tables.shapes
  curves : s.tables.curves = t.tables.curves
  sources : s.tables.sources = t.tables.sources
  engines : s.engines = t.engines
  keyers : s.keyers = t.keyers
  ftb : s.ftb = t.ftb
  mon : s.mon = t.mon
  generators : s.generators = t.generators
  lanes : ∀ n, s.lanePicture n = t.lanePicture n

/-- A source shows the same (R63). -/
theorem State.LooksLike.source {s t : State} (h : s.LooksLike t) (me1 me2 : Picture) (n : Nat) :
    s.sourcePicture me1 me2 n = t.sourcePicture me1 me2 n := by
  funext line place
  have hr : s.rawPicture me1 me2 n = t.rawPicture me1 me2 n := by
    funext line place
    simp only [State.rawPicture, h.lanes, h.generators, h.timing]
  simp only [State.sourcePicture, hr, State.source, h.sources]
  rfl

/-- The engines drive the same (R82, R129, R138, R147). -/
theorem State.LooksLike.drives {s t : State} (h : s.LooksLike t) :
    (∀ e, s.drive e = t.drive e) ∧ (∀ e, s.lookAhead e = t.lookAhead e) ∧
      (∀ n, s.keyFade n = t.keyFade n) ∧ (∀ n, s.aheadFade n = t.aheadFade n) ∧
      s.ftbFade = t.ftbFade := by
  have hn : ∀ e, s.nextElements e = t.nextElements e := by
    intro e
    simp only [State.nextElements, State.keyDirection, State.engine, State.keyer, h.engines, h.keyers,
      h.ftb]
    rfl
  have hd : ∀ e, s.drive e = t.drive e := by
    intro e
    simp only [State.drive, hn, State.engine, State.shape, h.engines, h.shapes]
    rfl
  have hl : ∀ e, s.lookAhead e = t.lookAhead e := by
    intro e
    simp only [State.lookAhead, hn, State.engine, h.engines]
  refine ⟨hd, hl, fun n => ?_, fun n => ?_, ?_⟩
  · simp only [State.keyFade, hd, State.idleFade, State.keyer, h.keyers]
    rfl
  · simp only [State.aheadFade, hl, State.idleFade, State.keyer, h.keyers]
    rfl
  · simp only [State.ftbFade, hd, h.ftb]

/-- The layers are the same functions of the pictures they are laid over. -/
theorem State.LooksLike.layers {s t : State} (h : s.LooksLike t) :
    (∀ e a b, s.background e a b = t.background e a b) ∧
      (∀ bus n kf under, s.layKey bus n kf under = t.layKey bus n kf under) := by
  obtain ⟨hd, -, -, -, -⟩ := h.drives
  constructor
  · intro e a b
    funext line place
    simp only [State.background, State.backgroundCoefficients, State.driveBackground, hd,
      State.coordinates, h.timing, State.matte, h.generators]
  · intro bus n kf under
    funext line place
    simp only [State.layKey, State.keyOver, State.keyer, State.coordinates, State.curve, State.mask,
      State.shape, h.keyers, h.timing, h.curves, h.shapes]
    rfl

/-- The outputs depend on the state through what `LooksLike` names alone. -/
theorem State.LooksLike.output {s t : State} (h : s.LooksLike t) (o : OutputLane) :
    s.outputPicture o = t.outputPicture o := by
  obtain ⟨hd, hl, hk, ha, hf⟩ := h.drives
  obtain ⟨hb, hy⟩ := h.layers
  have b1 : s.me1Bus = t.me1Bus := by
    funext b; simp only [State.me1Bus, State.bus, h.buses, h.source]
  have hkf : s.keyFade = t.keyFade := funext hk
  have haf : s.aheadFade = t.aheadFade := funext ha
  have m1 : s.me1Output = t.me1Output := by
    simp only [State.me1Output, State.layBank, hb, hy, b1, hkf]
  have b2 : s.me2Bus = t.me2Bus := by
    funext b; simp only [State.me2Bus, State.bus, h.buses, h.source, m1]
  have m2 : s.me2Output = t.me2Output := by
    simp only [State.me2Output, State.layBank, hb, hy, b2, hkf]
  have hu : ∀ p, s.underBypass p = t.underBypass p := by
    intro p; simp only [State.underBypass, h.bypass, m1]
    split
    · exact h.source _ _ _
    · rfl
  have hfd : ∀ p, s.fadeToBlack p = t.fadeToBlack p := by
    intro p; unfold State.fadeToBlack; rw [hf]
  have hld : ∀ p, s.layDownstream p = t.layDownstream p := by
    intro p; simp only [State.layDownstream, hy, b2, hkf]
  have hla : ∀ e bus a f, s.lookAheadPicture e bus a f = t.lookAheadPicture e bus a f := by
    intro e bus a f; simp only [State.lookAheadPicture, State.layBank, hl, hy, haf]
  have hp : s.pgm = t.pgm := by simp only [State.pgm, hu, hfd, hld, m2]
  have hc : s.clean = t.clean := by simp only [State.clean, hu, hfd, m2]
  have hv : s.pvw = t.pvw := by simp only [State.pvw, hld, hla, b2]
  have h1 : s.me1LookAhead = t.me1LookAhead := by simp only [State.me1LookAhead, hla, b1]
  cases o with
  | pgm => exact hp
  | clean => exact hc
  | pvw => exact hv
  | me1 => exact m1
  | mon =>
    simp only [State.outputPicture, State.monPicture, h.mon]
    cases t.mon with
    | pgm => exact hp
    | clean => exact hc
    | pvw => exact hv
    | me1 => exact m1
    | me1LookAhead => exact h1
    | source n => simp only [h.source, m1, m2]

/-- The delivery of a command other than SET FORMAT keeps what the outputs show of the field in progress
(R74, log 3). -/
theorem State.deliver_looksLike (s : State) (tag : Tag) (c : Command) (hc : ∀ f, c ≠ .setFormat f) :
    (s.deliver tag c).asShown.LooksLike s.asShown := by
  have ht : (s.deliver tag c).timing = s.timing :=
    (s.deliver_timing tag c).resolve_right fun ⟨f, h, _⟩ => hc f h
  obtain ⟨-, hfree, -, -, -, hpic⟩ := s.deliver_keeps_rest tag c
  have hg := s.deliver_test tag c
  have hlane : ∀ n, ((s.deliver tag c).lane n).decision = (s.lane n).decision ∧
      ((s.deliver tag c).lane n).pictureCurrent = (s.lane n).pictureCurrent := by
    intro n
    by_cases h : isEngineCommand c = true
    · rw [State.lane, (s.deliver_engine tag c h).lanes]; exact ⟨rfl, rfl⟩
    · cases c with
      | setFormat f => exact absurd rfl (hc f)
      | setLane m l =>
        show (look (put s.lanes (m - 1) { s.lane m with settings := l }) (n - 1) Lane.reset).decision =
            _ ∧ (look (put s.lanes (m - 1) { s.lane m with settings := l }) (n - 1)
              Lane.reset).pictureCurrent = _
        rw [look_put]
        split
        · rename_i h; rw [State.lane, State.lane, h.1]; exact ⟨rfl, rfl⟩
        · exact ⟨rfl, rfl⟩
      | reseek lanes =>
        simp only [State.deliver, State.deliverReseek, State.reseekLanes, State.lane, look_changeAll]
        split
        · split <;> exact ⟨rfl, rfl⟩
        · rename_i h; rw [look_of_le _ (Nat.le_of_not_lt h)]; exact ⟨rfl, rfl⟩
      | _ => first
        | exact absurd rfl h
        | exact ⟨rfl, rfl⟩
        | (simp only [State.deliver, State.deliverSelect, State.deliverSetMatte]
           split <;> exact ⟨rfl, rfl⟩)
  have hl : ∀ n, (s.deliver tag c).asShown.lanePicture n = s.asShown.lanePicture n := by
    intro n
    funext line place
    obtain ⟨a1, a2⟩ := (s.deliver tag c).lane_asShown n
    obtain ⟨b1, b2⟩ := s.lane_asShown n
    obtain ⟨c1, c2⟩ := hlane n
    have hsub : ((s.deliver tag c).asShown.lane n).settings.substitute =
        (s.asShown.lane n).settings.substitute := by
      simp only [State.lane, State.asShown, look_changeAll, hpic]
      split <;> rfl
    have hss : ∀ x p, (s.deliver tag c).asShown.substituteSample x p = s.asShown.substituteSample x p := by
      intro x p
      simp only [State.substituteSample, State.asShown, hpic]
    simp only [State.lanePicture, State.laneSample?, a1, a2, b1, b2, c1, c2, hsub, hss,
      State.asShown_free, hfree]
  refine ⟨ht, ?_, ?_, ?_, ?_, ?_, ?_, ?_, ?_, ?_, ?_, hl⟩
  all_goals (simp only [State.asShown, hpic, hg])

/-- A panel command taken within a field, SET FORMAT apart, leaves its active samples (R74, log 3). -/
theorem State.command_outputSample (s : State) (tag : Tag) (c : Command)
    (hc : ∀ f, c ≠ .setFormat f) (o : OutputLane) :
    (s.command tag c).outputSample o = s.outputSample o := by
  have key : ∀ u : State, u.timing = s.timing → u.asShown.LooksLike s.asShown →
      u.outputSample o = s.outputSample o := by
    intro u ht hu
    rw [State.outputSample, State.outputSample, ht, hu.output o]
  have note : ∀ (x : Nat) (r : Reason) (n : Nat),
      (s.postNotice tag x r n).asShown.LooksLike s.asShown := fun _ _ _ =>
    ⟨rfl, rfl, rfl, rfl, rfl, rfl, rfl, rfl, rfl, rfl, rfl, fun _ => rfl⟩
  have hcl : ∀ f, c.clamp ≠ .setFormat f := by
    intro f h
    cases c <;> first
      | exact hc _ rfl
      | exact Command.noConfusion h
  unfold State.command
  split
  · exact key _ rfl (note _ _ _)
  · split
    · exact key _ rfl (note _ _ _)
    · rw [State.noticeIf]
      split
      · have h := (s.postNotice tag c.code .clamped c.subject).deliver_looksLike tag c.clamp hcl
        have n := note c.code .clamped c.subject
        refine key _ (h.timing.trans rfl) ⟨h.1.trans n.1, h.2.trans n.2, h.3.trans n.3,
          h.4.trans n.4, h.5.trans n.5, h.6.trans n.6, h.7.trans n.7, h.8.trans n.8, h.9.trans n.9,
          h.10.trans n.10, h.11.trans n.11, fun n' => (h.12 n').trans (n.12 n')⟩
      · exact key _ (s.deliver_looksLike tag c.clamp hcl).timing (s.deliver_looksLike tag c.clamp hcl)

end Sys2Proof.Machine
end

