-- ==== Sys2Proof/Laws/Reports.lean ====
section
/-!
SUPPORT. Reading the bytes of a payload back (R183): a byte and a field behind other bytes, the fields that
`fieldBytes` and `longBytes` write, and the members of a bitmap.
-/

namespace Sys2Proof

theorem byteOf_toNat (n : Nat) : (byteOf n).toNat = n % 256 := by simp [byteOf]

theorem byteAt_append_left (p q : List Byte) {i : Nat} (h : i < p.length) :
    byteAt (p ++ q) i = byteAt p i := by
  simp only [byteAt, List.getD_append _ _ _ _ h]

theorem byteAt_append_right (p q : List Byte) (j : Nat) :
    byteAt (p ++ q) (p.length + j) = byteAt q j := by
  simp only [byteAt]
  rw [List.getD_append_right _ _ _ _ (by omega), Nat.add_sub_cancel_left]

theorem fieldAt_append_right (p q : List Byte) (j : Nat) :
    fieldAt (p ++ q) (p.length + j) = fieldAt q j := by
  simp only [fieldAt, byteAt_append_right, Nat.add_assoc]

theorem longAt_append_right (p q : List Byte) (j : Nat) :
    longAt (p ++ q) (p.length + j) = longAt q j := by
  simp only [longAt, fieldAt_append_right, Nat.add_assoc]

/-- A two-byte field is read back (R183). -/
theorem fieldAt_fieldBytes (n : Nat) (q : List Byte) : fieldAt (fieldBytes n ++ q) 0 = n % 65536 := by
  show (byteOf (n / 256)).toNat * 256 + (byteOf n).toNat = _
  rw [byteOf_toNat, byteOf_toNat]
  omega

/-- A four-byte field is read back (R183). -/
theorem longAt_longBytes (n : Nat) (q : List Byte) : longAt (longBytes n ++ q) 0 = n % 4294967296 := by
  have h0 : fieldAt (fieldBytes (n / 65536) ++ (fieldBytes n ++ q)) 0 = n / 65536 % 65536 :=
    fieldAt_fieldBytes _ _
  have h2 : fieldAt (fieldBytes (n / 65536) ++ (fieldBytes n ++ q)) 2 = n % 65536 :=
    (fieldAt_append_right (fieldBytes (n / 65536)) _ 0).trans (fieldAt_fieldBytes _ _)
  rw [longBytes, List.append_assoc, longAt, h0, h2]
  omega

namespace Machine

/-- The members of a bitmap are its bits (R183). -/
theorem bitmap_testBit (l : List Bool) (n : Nat) : (bitmap l).testBit n = l.getD n false := by
  induction l generalizing n with
  | nil => simp [bitmap]
  | cons b l ih =>
    have h : bitmap (b :: l) = b.toNat + 2 * bitmap l := rfl
    cases n with
    | zero => cases b <;> simp [h, Nat.testBit_zero]
    | succ n =>
      have h2 : (b.toNat + 2 * bitmap l) / 2 = bitmap l := by cases b <;> simp; omega
      rw [h, Nat.testBit_succ, h2, ih]
      rfl

/-- A bitmap has no bit beyond its members. -/
theorem bitmap_lt (l : List Bool) : bitmap l < 2 ^ l.length := by
  induction l with
  | nil => decide
  | cons b l ih =>
    have h : bitmap (b :: l) = b.toNat + 2 * bitmap l := rfl
    rw [h, List.length_cons, Nat.pow_succ]
    cases b <;> simp <;> omega

end Machine

end Sys2Proof
end

