-- ==== Sys2Proof/Laws/Watch.lean ====
section
/-!
SUPPORT. The missed-field watch and the turn of the lanes at an output field start (R9, R12), said once: what
every lane, the Command Receiver and the reports hold after it.
-/

namespace Sys2Proof.Machine

open Sys2Proof

/-- A lane record after the watch at the start of a field of parity `p` (R12). -/
def Lane.watchedOut (l : Lane) (p : Parity) : Lane :=
  if l.misses then (l.watched.turnField p).goDown else l.watched.turnField p

theorem Lane.misses_iff (l : Lane) :
    l.misses = true ↔ l.watched.state ≠ .down ∧ 2 ≤ l.watched.missed := by
  unfold Lane.misses Lane.watched
  by_cases h : l.state = .down
  · simp [h]
  · cases l.seen <;> simp [h]
    omega

/-- `t` is `u` once the lanes of `l` have been watched. -/
structure State.Watched (u t : State) (l : List Nat) : Prop where
  timing : t.timing = u.timing
  outside : ∀ m, isLane m = true → m ∉ l → t.lane m = u.lane m
  inside : ∀ m, isLane m = true → m ∈ l → t.lane m = (u.lane m).watchedOut u.timing.parity
  reports : t.reports =
    l.foldl (fun r m => if (u.lane m).misses then r.post .laneDown m 0 u.timing.field else r) u.reports
  receiver : t.receiver =
    if 25 ∈ l ∧ (t.lane 25).state.takesPackets = false then { u.receiver with inReception := none }
    else u.receiver

/-- The watch of one more lane. -/
theorem State.Watched.snoc {u t : State} {l : List Nat} (h : u.Watched t l) {n : Nat}
    (hn : isLane n = true) (hl : n ∉ l) : u.Watched (t.watchLane n) (l ++ [n]) := by
  have hm : ∀ f, f ∈ l ++ [n] ↔ f ∈ l ∨ f = n := by simp
  have e := h.outside n hn hl
  have hr25 : n = 25 → t.receiver = u.receiver := by
    intro h'; rw [h.receiver, if_neg]; rintro ⟨a, _⟩; exact hl (h' ▸ a)
  obtain ⟨v, hv, hlane, hother, htime, hrep, hrec⟩ : ∃ v : State, t.watchLane n = v ∧
      v.lane n = (u.lane n).watchedOut u.timing.parity ∧
      (∀ m, isLane m = true → m ≠ n → v.lane m = t.lane m) ∧ v.timing = t.timing ∧
      v.reports =
        (if (u.lane n).misses then t.reports.post .laneDown n 0 u.timing.field else t.reports) ∧
      v.receiver =
        if n = 25 ∧ (v.lane 25).state.takesPackets = false then { t.receiver with inReception := none }
        else t.receiver := by
    refine ⟨_, rfl, ?_⟩
    simp only [State.watchLane, e, h.timing, ← Lane.misses_iff, Lane.watchedOut]
    split
    · have hl1 : ((t.setLane n ((u.lane n).watched.turnField u.timing.parity)).laneToDown n).lane n =
          ((u.lane n).watched.turnField u.timing.parity).goDown := by
        show (State.setLane _ _ _).lane n = _
        rw [State.lane_setLane_same _ hn, State.lane_setLane_same _ hn]
      refine ⟨hl1, fun m hm' hne => ?_, h.timing, by rw [← h.timing]; rfl, ?_⟩
      · show (State.setLane _ _ _).lane m = _
        rw [State.lane_setLane_ne _ hn hm' (Ne.symm hne), State.lane_setLane_ne _ hn hm' (Ne.symm hne)]
      · by_cases h25 : n = 25
        · subst h25
          rw [hl1]
          simp only [State.laneToDown, State.postCondition, State.setLane, laneC, Lane.goDown,
            LaneState.takesPackets, and_self, if_true]
          split <;> rfl
        · rw [if_neg fun h' => h25 h'.1]
          show (State.setLane _ _ _).receiver = _
          simp [State.setLane, laneC, h25]
    · have hl1 := State.lane_setLane_same t hn ((u.lane n).watched.turnField u.timing.parity)
      refine ⟨hl1, fun m hm' hne => State.lane_setLane_ne _ hn hm' (Ne.symm hne) _, h.timing, rfl, ?_⟩
      by_cases h25 : n = 25
      · subst h25
        rw [hl1]
        rfl
      · rw [if_neg fun h' => h25 h'.1]
        simp [State.setLane, laneC, h25]
  rw [hv]
  refine ⟨by rw [htime, h.timing], fun m hmm h' => ?_, fun m hmm h' => ?_, ?_, ?_⟩
  · rw [hm, not_or] at h'
    rw [hother m hmm h'.2, h.outside m hmm h'.1]
  · by_cases hmn : m = n
    · subst hmn; exact hlane
    · rw [hother m hmm hmn, h.inside m hmm (((hm m).1 h').resolve_right hmn)]
  · rw [List.foldl_append, ← h.reports, hrep]
    rfl
  · rw [hrec]
    by_cases h25 : n = 25
    · rw [hr25 h25]
      simp only [h25, List.mem_append, List.mem_singleton, or_true, true_and]
    · rw [if_neg fun h' => h25 h'.1, h.receiver, hother 25 rfl (Ne.symm h25)]
      simp only [hm, Ne.symm h25, or_false]

/-- The watch over every lane (R12). -/
theorem State.watchLanes_watched (u : State) : u.Watched u.watchLanes laneNumbers := by
  have go : ∀ (r l : List Nat) (t : State), (l ++ r).Nodup → (∀ n ∈ r, isLane n = true) →
      u.Watched t l → u.Watched (r.foldl State.watchLane t) (l ++ r) := by
    intro r
    induction r with
    | nil => intro l t _ _ h; rw [List.append_nil]; exact h
    | cons n r ih =>
      intro l t hd hl h
      have hn : n ∉ l := by
        rw [List.nodup_append] at hd
        exact fun h' => hd.2.2 n h' n List.mem_cons_self rfl
      rw [List.foldl_cons, show l ++ n :: r = (l ++ [n]) ++ r by simp]
      exact ih _ _ (by simpa using hd) (fun m hm => hl m (List.mem_cons_of_mem _ hm))
        (h.snoc (hl n List.mem_cons_self) hn)
  exact go laneNumbers [] u (by decide) (by decide)
    { timing := rfl, outside := fun _ _ _ => rfl, inside := fun _ _ h => (List.not_mem_nil h).elim
      reports := rfl, receiver := by simp }

/-- With nothing due at it, a field start leaves of lanes, Command Receiver and reports what the watch leaves,
with the delivery decisions made (R11, R12). -/
theorem State.startField_watched (s : State)
    (h : ∀ e ∈ s.waiting.entries, e.due ≠ s.timing.counter) :
    (∀ n, isLane n = true →
      s.startField.lane n = ((s.lane n).watchedOut s.timing.nextParity).decide) ∧
    s.startField.reports = s.laneDownPosts s.reports ∧
    s.startField.receiver = s.receptionAfter s.startField 25 := by
  have A := s.beginField.watchLanes_watched
  have hmem : ∀ n, isLane n = true → n ∈ laneNumbers := by
    intro n hn
    simp only [isLane, Bool.and_eq_true, decide_eq_true_eq] at hn
    exact List.mem_map.2 ⟨n - 1, List.mem_range.2 (by omega), by omega⟩
  rw [s.startField_of_none_due h]
  generalize s.beginField.watchLanes = v at A
  have F := State.stepEngines_only v.applyBypass
  have hrep : v.applyBypass.stepEngines.reports = v.reports :=
    State.stepEngines_keeps (P := fun t => t.reports = v.reports)
      (fun t e ht => by
        rw [← ht]
        simp only [State.stepEngine]
        split
        · split <;> rfl
        · rfl) _ rfl
  generalize v.applyBypass.stepEngines = z at F hrep
  have hl : z.lanes = v.lanes := F.lanes
  have hr : z.receiver = v.receiver := F.receiver
  have hlane : ∀ n, isLane n = true →
      (State.takeStatus (State.formTally z.exchange.decideLanes.takePicture)).lane n = (v.lane n).decide := by
    intro n hn
    show look (changeAll (fun _ l => Lane.decide l) z.lanes) (n - 1) Lane.reset = _
    simp only [isLane, Bool.and_eq_true, decide_eq_true_eq] at hn
    rw [hl, look_changeAll, if_pos (show n - 1 < 25 by omega)]
    rfl
  refine ⟨fun n hn => ?_, ?_, ?_⟩
  · rw [hlane n hn, A.inside n hn (hmem n hn)]
    rfl
  · show z.reports = _
    rw [hrep, A.reports]
    rfl
  · show z.receiver = _
    rw [hr, A.receiver, State.receptionAfter, hlane 25 rfl]
    show _ = if _ ∧ (v.lane 25).state ≠ _ ∧ (v.lane 25).state ≠ _ then _ else _
    simp only [hmem 25 rfl, true_and, LaneState.takesPackets_false]
    rfl

end Sys2Proof.Machine
end

