-- ==== Sys2Proof/Tests/Slice0.lean ====
section
/-!
SUPPORT. Tests of the model. Expected values are the manual's own: its worked examples and tables, named
at each test. The last part gives each obligation that has hypotheses a state that meets them.
-/

namespace Sys2Proof.Tests

open Sys2Proof Sys2Proof.Machine

/-! ### Well-formed rows: one ill-formed term for each check, refused -/

theorem test_wellFormed_select_bus : (Instr.select 0 20 1).wellFormed = false := by decide
theorem test_wellFormed_select_source : (Instr.select 0 8 31).wellFormed = false := by decide
theorem test_wellFormed_select_loop_me1 : (Instr.select 0 7 29).wellFormed = false := by decide
theorem test_wellFormed_select_loop_other : (Instr.select 0 8 30).wellFormed = false := by decide
theorem test_wellFormed_engine_set :
    (Instr.take 0 0#5).wellFormed = false ∧ (Instr.cut 0 0#5).wellFormed = false ∧
    (Instr.hold 0 0#5).wellFormed = false ∧ (Instr.resume 0 0#5).wellFormed = false ∧
    (Instr.release 0 0#5).wellFormed = false := by decide
theorem test_wellFormed_transition :
    (Instr.setTransition 0 .me1 ⟨.mix, 1000, 0, 0, 0, .matte1, false⟩).wellFormed = false ∧
    (Instr.setTransition 0 .me1 ⟨.mix, 1, 16, 0, 0, .matte1, false⟩).wellFormed = false ∧
    (Instr.setTransition 0 .me1 ⟨.mix, 1, 0, 256, 0, .matte1, false⟩).wellFormed = false ∧
    (Instr.setTransition 0 .me1 ⟨.mix, 1, 0, 0, 256, .matte1, false⟩).wellFormed = false := by decide
theorem test_wellFormed_lever_force :
    (Instr.lever 0 .me1 1025).wellFormed = false ∧
    (Instr.force 0 .me1 1025).wellFormed = false := by decide
theorem test_wellFormed_setKey :
    (Instr.setKey 0 8 ⟨.luma, 64, 16, false, 0, none, 4095, false⟩).wellFormed = false ∧
    (Instr.setKey 0 0 ⟨.luma, 1024, 16, false, 0, none, 4095, false⟩).wellFormed = false ∧
    (Instr.setKey 0 0 ⟨.luma, 64, 15, false, 0, none, 4095, false⟩).wellFormed = false ∧
    (Instr.setKey 0 0 ⟨.luma, 64, 4096, false, 0, none, 4095, false⟩).wellFormed = false ∧
    (Instr.setKey 0 0 ⟨.luma, 64, 16, false, 8, none, 4095, false⟩).wellFormed = false ∧
    (Instr.setKey 0 0 ⟨.luma, 64, 16, false, 0, some 16, 4095, false⟩).wellFormed = false ∧
    (Instr.setKey 0 0 ⟨.luma, 64, 16, false, 0, none, 4096, false⟩).wellFormed = false := by decide
theorem test_wellFormed_setMatte :
    (Instr.setMatte 0 .matte1 ⟨63, 512, 512⟩).wellFormed = false ∧
    (Instr.setMatte 0 .matte1 ⟨941, 512, 512⟩).wellFormed = false ∧
    (Instr.setMatte 0 .matte1 ⟨64, 63, 512⟩).wellFormed = false ∧
    (Instr.setMatte 0 .matte1 ⟨64, 512, 961⟩).wellFormed = false := by decide
theorem test_wellFormed_setLane :
    (Instr.setLane 0 0 ⟨.black, 8, 4, false⟩).wellFormed = false ∧
    (Instr.setLane 0 26 ⟨.black, 8, 4, false⟩).wellFormed = false ∧
    (Instr.setLane 0 1 ⟨.black, 17, 4, false⟩).wellFormed = false ∧
    (Instr.setLane 0 1 ⟨.black, 8, 0, false⟩).wellFormed = false ∧
    (Instr.setLane 0 1 ⟨.black, 8, 16, false⟩).wellFormed = false := by decide
theorem test_wellFormed_reseek :
    (Instr.reseek 0 0#32).wellFormed = false ∧ (Instr.reseek 0 1#32).wellFormed = false ∧
    (Instr.reseek 0 0x04000000#32).wellFormed = false := by decide
theorem test_wellFormed_loadShape :
    (Instr.loadShape 0 16 ⟨.box, 0, 0, 1⟩).wellFormed = false ∧
    (Instr.loadShape 0 0 ⟨.box, 4096, 0, 1⟩).wellFormed = false ∧
    (Instr.loadShape 0 0 ⟨.box, 0, 4096, 1⟩).wellFormed = false ∧
    (Instr.loadShape 0 0 ⟨.box, 0, 0, 0⟩).wellFormed = false ∧
    (Instr.loadShape 0 0 ⟨.box, 0, 0, 65⟩).wellFormed = false := by decide
theorem test_wellFormed_loadCurve :
    (Instr.loadCurve 0 8 0 [1]).wellFormed = false ∧ (Instr.loadCurve 0 0 33 [1]).wellFormed = false ∧
    (Instr.loadCurve 0 0 0 []).wellFormed = false ∧
    (Instr.loadCurve 0 0 32 [1, 1]).wellFormed = false ∧
    (Instr.loadCurve 0 0 0 [1025]).wellFormed = false := by decide
theorem test_wellFormed_tables :
    (Instr.loadSource 0 31 ⟨true, false, false⟩).wellFormed = false ∧
    (Instr.commit 0 ⟨false, false, false⟩).wellFormed = false := by decide
theorem test_wellFormed_points :
    (Instr.setMonitor 0 (.source 31)).wellFormed = false ∧
    (Instr.checkerStart 0 (.lane 0) .wrap).wellFormed = false ∧
    (Instr.checkerStart 0 (.lane 25) .wrap).wellFormed = false := by decide
theorem test_wellFormed_subject_bypass :
    (Instr.clearConditionsOne 0 .refLost 26).wellFormed = false ∧
    (Instr.bypass 0 (some 29)).wellFormed = false := by decide
theorem test_wellFormed_lane_events :
    (Instr.laneDown 0).wellFormed = false ∧ (Instr.laneFieldStart 26 0).wellFormed = false ∧
    (Instr.laneLine 0 [] 0).wellFormed = false ∧ (Instr.laneErrors 26).wellFormed = false := by decide
theorem test_wellFormed_accepts :
    (Instr.select 0 19 29).wellFormed = true ∧ (Instr.laneDown 25).wellFormed = true ∧
    (Instr.bypass 0 none).wellFormed = true ∧ (Instr.powerReset).wellFormed = true := by decide

/-! ### Helpers -/

/-- The state that an outcome answers. -/
def stateOf : Host.Outcome State Fault Refusal → State
  | .next t => t
  | .fault _ => State.reset
  | .refused _ => State.reset

/-- The state after one command. -/
def after (i : Instr) (s : State) : State := stateOf (exec i s)

/-- 1920×1080 progressive, field `n` next, free-running (as most of the manual's examples). -/
def base (n : FieldNo) : State :=
  { State.reset with
    timing :=
      { Timing.reset with
        format := .progressive1080, counter := n, field := n - 1, started := true
        fieldPeriod := 1125000, refParity := false } }

/-- A run record of a MIX at a rate, with elements. -/
def mixRun (elements : Elements) (rate : Nat) : RunRecord :=
  ⟨elements, ⟨.mix, rate, 0, 0, 0, .matte1, false⟩, some ⟨.horizontal, 2048, 2048, 16⟩, .auto⟩

/-- An M/E engine in a state, at a step of a run. -/
def running (state : EngineState) (j q rate : Nat) (elements : Elements) : Engine :=
  { Engine.reset ⟨true, false, false, false⟩ with
    state := state, j := j, q := q, run := some (mixRun elements rate) }

/-- The background alone. -/
def bkgd : Elements := ⟨true, [], none⟩

/-- Lane `n` with a record. -/
def withLane (n : Nat) (l : Lane) (s : State) : State := s.setLane n l

/-- A lane in TIMED at a lateness, window 8, limit 4, substitute MATTE1 (1.4.1). -/
def timedLane (d : Int) (delay : Nat) (slip : Bool) : Lane :=
  { Lane.reset with
    state := .timed, lateness := d, delay := delay, slip := slip, lines := 1125
    settings := ⟨.matte1, 8, 4, false⟩ }

/-- A state in which lane C takes control packets. -/
def listening (s : State) : State := s.setLane 25 (timedLane 3 13 false)

/-- A state with waiting entries. -/
def waitingFor (l : List Entry) (s : State) : State := { s with waiting := ⟨l, false⟩ }

/-- ME2's buses A and B (8 and 9). -/
def withPair (a b : Nat) (s : State) : State := (s.setBus 8 a).setBus 9 b

/-- In LOCKING, with a good-field count, `since` ticks into the output field. -/
def inLocking (f : Format) (good since : Nat) : State :=
  { base 9 with
    timing :=
      { (base 9).timing with
        format := f, ref := .locking, good := good, refSeen := true, sinceRef := 1125000
        sinceField := since, refLines := 562, refPrev := some true } }

/-- In LOCKED, `since` ticks into the output field, the held period 1125000 ticks. -/
def inLocked (aligning : Bool) (wrong since : Nat) : State :=
  { base 9 with
    timing :=
      { (base 9).timing with
        ref := .locked, refSeen := true, sinceRef := 1125000, aligning := aligning, wrong := wrong
        sinceField := since, refLines := 0, period1 := 1125000, period2 := 1125000 } }

/-! ### The Timing Unit: 1.2.1, times in nominal periods of 1125 lines -/

/-- 1.2.1 at 0.40: start A puts the unit in LOCKING. -/
theorem test_fieldPulse_start_a :
    (after (.fieldPulse 450000 0 false) (base 501)).timing.ref = .locking := by decide

/-- 1.2.1 at 2.40: start C ends a second correct field; LOCKED, and field 502, begun 0.40 ago, goes on. -/
def atC : State :=
  { base 503 with
    timing :=
      { (base 503).timing with
        ref := .locking, good := 1, refSeen := true, silent := false, sinceField := 0
        sinceRef := 675000, refLines := 675 } }

theorem test_fieldPulse_start_c :
    (after (.fieldPulse 450000 450 false) atC).timing.ref = .locked ∧
    (after (.fieldPulse 450000 450 false) atC).timing.field = 502 ∧
    (after (.fieldPulse 450000 450 false) atC).timing.aligning = true := by decide

/-- 1.2.1 at 3.40: start D is the aligned field start. -/
def atD : State :=
  { base 503 with
    timing :=
      { (base 503).timing with
        ref := .locked, refSeen := true, silent := false, aligning := true, sinceField := 450000
        sinceRef := 0 } }

theorem test_enterHoldover_refLost :
    (after (.enterHoldover .incorrectFields) { atD with timing := { atD.timing with aligning := false } }).reports.conditions =
      [⟨.refLost, 0, 502, 502, 1, 1⟩] := by decide

theorem test_fieldStart_aligned : (after (.fieldPulse 1125000 1125 false) atD).timing.field = 503 := by
  decide +kernel

theorem test_searchTimeout :
    (after .alignmentSearchTimeout atD).timing.field = 503 ∧
    (after .alignmentSearchTimeout atD).timing.ref = .locked := by decide +kernel

theorem test_enterLocked : (after .enterLocked atC).timing.ref = .locked := by decide

theorem test_silence_in_locking :
    (after .silence atC).timing.ref = .absent ∧ (after .silence atC).timing.silent = true := by decide

/-- R1: the counter goes from 65535 to 0. -/
theorem test_counter_wraps :
    (after .outputFieldStart (base 65535)).timing.field = 65535 ∧
    (after .outputFieldStart (base 65535)).timing.counter = 0 := by decide +kernel

/-- R1, R3: the first field after a reset is field 0 of parity 0, the next one of parity 1. -/
theorem test_first_field :
    (after .outputFieldStart State.reset).timing.field = 0 ∧
    (after .outputFieldStart State.reset).timing.parity = false ∧
    (after .outputFieldStart State.reset).timing.nextParity = true := by decide +kernel

/-- R181: the reset cause. -/
theorem test_resets :
    (after .powerReset (base 9)).reports.cause = .power ∧
    (after .pinReset (base 9)).reports.cause = .pin ∧
    (after (.engineReset 0) (base 9)).reports.cause = .command := by decide

/-! ### The Lane Receivers: 1.4.1 -/

/-- Field 1202: +5 after +3, a slip. -/
theorem test_lane_slip :
    ((after (.laneFieldStart 7 5) (withLane 7 (timedLane 3 13 false) (base 1203))).lane 7).slip = true ∧
    ((after (.laneFieldStart 7 5) (withLane 7 (timedLane 3 13 false) (base 1203))).lane 7).delay = 13 ∧
    (after (.laneFieldStart 7 5) (withLane 7 (timedLane 3 13 false) (base 1203))).reports.conditions =
      [⟨.laneSlip, 7, 1202, 1202, 1, 2⟩] := by decide

/-- Field 1204: +11 is outside window 8. -/
theorem test_lane_untimed :
    ((after (.laneFieldStart 7 11) (withLane 7 (timedLane 5 11 false) (base 1205))).lane 7).state =
      .untimed ∧
    (after (.laneFieldStart 7 11) (withLane 7 (timedLane 5 11 false) (base 1205))).reports.conditions =
      [⟨.laneUntimed, 7, 1204, 1204, 1, 11⟩] := by decide

/-- 1.4.1: the fourth bad line sends the lane to SEEK, detail 4. -/
theorem test_laneLine_bad :
    ((after (.laneLine 7 [] 0) (withLane 7 { timedLane 5 11 false with bad := 3 } (base 1204))).lane 7).state =
      .seek ∧
    (after (.laneLine 7 [] 0) (withLane 7 { timedLane 5 11 false with bad := 3 } (base 1204))).reports.conditions =
      [⟨.laneErrors, 7, 1203, 1203, 1, 4⟩] := by decide

theorem test_laneErrors_row :
    (after (.laneErrors 7) (withLane 7 (timedLane 5 11 false) (base 1204))).reports.conditions =
      [⟨.laneErrors, 7, 1203, 1203, 1, 4⟩] := by decide

theorem test_laneDown_row :
    ((after (.laneDown 7) (withLane 7 (timedLane 5 11 false) (base 1204))).lane 7).state = .down ∧
    (after (.laneDown 7) (base 1204)) = base 1204 := by decide

/-- R9: 562 whole lines into a field of 1125 is +562, 563 is −562. -/
theorem test_lateness : measuredLateness 1125 562 = 562 ∧ measuredLateness 1125 563 = -562 := by decide

/-- R11: a lane with no matched field is decided on its state. -/
theorem test_presentationPoint :
    ((after .presentationPoint (withLane 7 (timedLane 5 11 false) (base 9))).lane 7).decision =
      ⟨.timed, false⟩ := by decide

/-- R11: a lane field matched with the field after the presentation point is not delivered in it, and
STATUS reports the state that its start brings. -/
theorem test_late_match :
    ((after (.laneFieldStart 7 20)
      (withLane 7 (timedLane 5 11 false)
        { base 9 with timing := { (base 9).timing with presented := true } })).lane 7).decision =
      ⟨.untimed, false⟩ := by decide

/-- R13: a lane field matched with the next field, begun as field of parity 1 by an aligned start, is
judged by the nominal length of that parity. -/
theorem test_openParity_corrected :
    ((after (.fieldPulse 0 1 true)
      (withLane 7 { timedLane 0 16 false with target := .next, openParity := false }
        { inLocking .interlaced1080 1 562500 with
          timing := { (inLocking .interlaced1080 1 562500).timing with refPrev := some true } })).lane
            7).openParity = true := by decide +kernel

theorem test_setLane_clamps :
    ((after (.setLane 5 7 ⟨.matte1, 20, 4, false⟩) (base 9)).lane 7).settings = ⟨.matte1, 16, 4, false⟩ ∧
    (after (.setLane 5 7 ⟨.matte1, 20, 4, false⟩) (base 9)).reports.notices = [⟨5, 13, .clamped, 7⟩] := by
  decide

theorem test_reseek :
    ((after (.reseek 5 0x80#32) (withLane 7 (timedLane 5 11 false) (base 9))).lane 7).state = .seek ∧
    ((after (.reseek 5 0x80#32) (withLane 7 (timedLane 5 11 false) (base 9))).lane 7).delay = 11 := by decide

theorem test_setFormat :
    (after (.setFormat 5 .uhd2160) (base 9)).timing.format = .uhd2160 ∧
    (after (.setFormat 5 .uhd2160) ((base 9).setEngine .me2 (running .auto 1 40 25 bkgd))).reports.notices =
      [⟨5, 15, .busy, 0⟩] := by decide

/-! ### The command lane: 11.1.1, 2.7, 2.8 -/

/-- 11.1.1: SELECT bus 9 source 4, tag 71, IMMEDIATE, word by word. -/
def framedSelect : List LinkWord :=
  [0x3FE#10, 0x001#10, 0x25A#10, 0x1C3#10, 0x108#10, 0x101#10, 0x200#10, 0x247#10, 0x200#10, 0x200#10,
    0x200#10, 0x209#10, 0x104#10, 0x17A#10]

theorem test_framing_select :
    framePacket .control (encodePayload 71 none (.select 9 4)) = framedSelect := by decide

theorem test_controlPacket_select :
    (after (.controlPacket framedSelect) (listening (base 4000))).waiting.entries =
      [⟨.select 9 4, 71, 4000⟩] ∧
    (after (.controlPacket framedSelect) (listening (base 4000))).receiver.taken = 1 := by decide

/-- 2.7, packet 5: AT 3998 is late by 3 at N = 4001 and late by 2 at N = 4000. -/
theorem test_stale_and_late :
    ((base 4001).classify 83 (.setNext .me2 ⟨true, false, false, false⟩) (some 3998) false).reports.notices =
      [⟨83, 2, .stale, 1⟩] ∧
    ((base 4000).classify 83 (.setNext .me2 ⟨true, false, false, false⟩) (some 3998) false).waiting.entries =
      [⟨.setNext .me2 ⟨true, false, false, false⟩, 83, 4000⟩] := by decide

/-- 2.7, packet 4: source 29 onto bus 3 is LOOP, subject 3. -/
theorem test_select_loop :
    (after (.select 82 3 29) (base 4001)).reports.notices = [⟨82, 1, .loop, 3⟩] := by decide

/-- 2.8: the arrival that brings the depth to 48 sets the hold flag, QUEUE_HOLD detail 48. -/
theorem test_queueHold :
    ((waitingFor (List.replicate 47 ⟨.snapshotKeep, 0, 5000⟩) (base 4990)).classify 1 .snapshotKeep
      (some 5010) false).reports.conditions = [⟨.queueHold, 0, 4989, 4989, 1, 48⟩] := by decide

/-- 2.8: a seventeenth good packet is dropped with CONTROL_OVERRUN, detail 1. -/
theorem test_overrun :
    (after (.controlPacket framedSelect)
      { listening (base 4990) with receiver := ⟨16, 0, none⟩ }).reports.conditions =
      [⟨.controlOverrun, 25, 4989, 4989, 1, 1⟩] := by decide

theorem test_controlBlankingEnd :
    (after .controlBlankingEnd { base 5 with receiver := ⟨0, 0, some []⟩ }).reports.conditions =
      [⟨.controlCheck, 25, 4, 4, 1, 2⟩] := by decide

theorem test_packetInReceptionStart :
    (after (.packetInReceptionStart []) (listening (base 5))).receiver.inReception = some [] ∧
    (after (.packetInReceptionStart []) (base 5)).receiver.inReception = none := by decide

theorem test_purge :
    (after (.purgeTag 1 72) (waitingFor [⟨.snapshotKeep, 71, 9⟩, ⟨.snapshotClear, 72, 9⟩] (base 5))).waiting.entries =
      [⟨.snapshotKeep, 71, 9⟩] ∧
    (after (.purgeAll 1) (waitingFor [⟨.snapshotKeep, 71, 9⟩] (base 5))).waiting.entries = [] := by decide

theorem test_bypass : (after (.bypass 1 (some 27)) (base 5)).matrix.staged = some (some 27) := by decide

/-! ### Tables and crosspoints: 3.10, 3.11, 4.4.1, 4.5.1 -/

/-- 3.10: the load at 7000; 1500 is clamped to 1024. -/
theorem test_loadCurve :
    (List.range 7).map (fun i =>
      curvePoint (look (after (.loadCurve 1 2 4 [100, 200, 1500, 300, 260]) (base 7001)).tables.shadowCurves 2
        identityCurve) (i + 3)) = [96, 100, 200, 1024, 300, 260, 288] ∧
    (after (.loadCurve 1 2 4 [100, 200, 1500, 300, 260]) (base 7001)).tables.dirtyCurves = true := by decide

/-- 3.10: a first point plus count of 34 is refused with BAD_RANGE. -/
theorem test_loadCurve_range :
    (after (.loadCurve 1 2 32 [1, 2]) (base 7001)).reports.notices = [⟨1, 17, .badRange, 0⟩] := by decide

theorem test_loadShape_then_active :
    look (after (.loadShape 1 3 ⟨.diamond, 1024, 2048, 16⟩) (base 9)).tables.shadowShapes 3
      ⟨.box, 0, 0, 1⟩ = ⟨.diamond, 1024, 2048, 16⟩ ∧
    (after (.loadShape 1 3 ⟨.diamond, 1024, 2048, 16⟩) (base 9)).shape 3 = ⟨.box, 2048, 2048, 9⟩ := by decide

/-- 3.11: LOAD SOURCE 4 acts on SHADOW alone; after the COMMIT a SELECT of it is SOURCE_DISABLED. -/
theorem test_loadSource_commit :
    ((after (.loadSource 1 4 ⟨false, false, false⟩) (base 8001)).source 4).enabled = true ∧
    ((after (.commit 2 ⟨false, false, true⟩) (after (.loadSource 1 4 ⟨false, false, false⟩) (base 8001))).source
      4).enabled = false := by decide

theorem test_select_disabled :
    (after (.select 3 8 4)
      { base 8006 with
        tables := { Tables.reset with sources := put resetSources 4 ⟨false, false, false⟩ } }).reports.notices =
      [⟨3, 1, .sourceDisabled, 8⟩] := by decide

/-- 4.4.1, second row: SELECT bus 9 source 12 due at the completion field. -/
theorem test_select_at_completion :
    (fun t : State => (t.bus 8, t.bus 9, t.engines.me2.state)) (after .outputFieldStart
      (waitingFor [⟨.select 9 12, 1, 3100⟩]
        ((withPair 4 7 (base 3100)).setEngine .me2 (running .auto 24 983 25 bkgd)))) = (12, 4, .idle) := by
  decide +kernel

/-- 4.4.1, third row: SELECT bus 8 source 12. -/
theorem test_select_a_at_completion :
    (fun t : State => (t.bus 8, t.bus 9)) (after .outputFieldStart
      (waitingFor [⟨.select 8 12, 1, 3100⟩]
        ((withPair 4 7 (base 3100)).setEngine .me2 (running .auto 24 983 25 bkgd)))) = (7, 12) := by decide +kernel

/-- 4.5.1 at 9020: the staged request is the bypass state, the program tally is empty. -/
theorem test_bypass_at_field_start :
    (after .outputFieldStart { base 9020 with matrix := { Matrix.reset with staged := some (some 27) } }).matrix.bypass =
      some 27 ∧
    (after .outputFieldStart { base 9020 with matrix := { Matrix.reset with staged := some (some 27) } }).tally.program =
      Vector.replicate 31 false := by decide +kernel

/-! ### Transition engines: 5.9 -/

/-- 5.9.1 at 2000: TAKE, then the step of the field: j = 1, q = 40. -/
theorem test_take_and_step :
    (fun x : Engine => (x.state, x.j, x.q)) (after .outputFieldStart
      (waitingFor [⟨.take 2#5, 1, 2000⟩] (base 2000))).engines.me2 = (.auto, 1, 40) := by decide +kernel

/-- 5.9.1 at 2015: RESUME, then the step: j = 12, q = 491. -/
theorem test_resume_and_step :
    (fun x : Engine => (x.state, x.j, x.q)) (after .outputFieldStart
      (waitingFor [⟨.resume 2#5, 1, 2015⟩]
        ((base 2015).setEngine .me2 (running .paused 11 450 25 bkgd)))).engines.me2 = (.auto, 12, 491) := by
  decide +kernel

/-- 5.9.1 at 2011: HOLD keeps j and q. -/
theorem test_hold :
    (fun x : Engine => (x.state, x.j, x.q)) (after (.hold 1 2#5)
      ((base 2012).setEngine .me2 (running .auto 11 450 25 bkgd))).engines.me2 = (.paused, 11, 450) := by decide

theorem test_resume_refused :
    (after (.resume 1 2#5) (base 9)).reports.notices = [⟨1, 7, .notRunning, 1⟩] := by decide

/-- 5.9.1 at 2020: TAKE while AUTO is BUSY, subject 1. -/
theorem test_take_busy :
    (after (.take 1 2#5) ((base 2021).setEngine .me2 (running .auto 16 655 25 bkgd))).reports.notices =
      [⟨1, 4, .busy, 1⟩] := by decide

/-- R85: a CUT completes at its delivery; the exchange waits for the field start (R67). -/
theorem test_cut :
    (after (.cut 1 2#5) (withPair 4 7 (base 9))).matrix.exchange2 = 1 ∧
    (after (.cut 1 2#5) (withPair 4 7 (base 9))).bus 8 = 4 := by decide

/-- R37, R84: a TAKE to all engines completes the one at rate 0, refuses one in AUTO and starts the rest. -/
theorem test_take_mixed :
    (fun s : State => (EngineId.all.map fun e => (s.engine e).state, s.ftb, s.reports.notices))
      (after (.take 1 31#5)
        (((base 9).setEngine .dsk1 (running .auto 3 122 25 ⟨false, [(6, .on)], none⟩)).setEngine .ftb
          { Engine.reset ⟨false, false, false, false⟩ with
            next := { NextSettings.reset with rate := 0 } })) =
      ([.auto, .auto, .auto, .auto, .idle], .blacked, [⟨1, 4, .busy, 2⟩]) := by decide

/-- R24: lane C leaves TIMED by a second start matched with one output field, and its packet is discarded;
R23: the counts return to 0. -/
theorem test_laneC_leaves :
    (after (.laneFieldStart 25 5)
      { (base 9).setLane 25
          { timedLane 3 13 false with matchedCurrent := some ⟨.timed, true⟩ } with
        receiver := ⟨7, 2, some []⟩ }).receiver = ⟨0, 0, none⟩ := by decide

/-- 5.9.2 at 100: LEVER 300 latches BKGD and K1 ON. -/
theorem test_lever_starts :
    (fun x : Engine => (x.state, x.q, x.run.map (·.elements.keys))) (after (.lever 1 .me1 300)
      ((base 101).setEngine .me1 (Engine.reset ⟨true, true, false, false⟩))).engines.me1 =
      (.lever, 300, some [(0, .on)]) := by decide

/-- 5.9.2 at 119: L = 600, sense DOWN, p = 424 ≥ 368 picks the run up. -/
theorem test_lever_picks_up :
    (fun x : Engine => (x.state, x.j, x.q)) (after (.lever 1 .me1 600)
      ((base 120).setEngine .me1
        { running .auto 9 368 25 bkgd with lever := ⟨700, .down, false⟩ })).engines.me1 = (.lever, 9, 424) := by
  decide

theorem test_force_release :
    (after (.force 1 .me2 2000) (base 9)).engines.me2.force = some 1024 ∧
    (after (.release 1 2#5) ((base 9).setEngine .me2
      { running .auto 5 512 10 bkgd with force := some 512 })).engines.me2.force = none := by decide

/-- R76: a WIPE for a downstream engine is BAD_STYLE. -/
theorem test_setTransition :
    (after (.setTransition 1 .ftb ⟨.wipe, 40, 0, 0, 0, .matte1, false⟩) (base 9)).reports.notices =
      [⟨1, 3, .badStyle, 4⟩] ∧
    (after (.setTransition 1 .me1 ⟨.wipe, 1200, 3, 0, 0, .matte2, true⟩) (base 9)).engines.me1.next =
      ⟨.wipe, 999, 3, 0, 0, .matte2, true⟩ := by decide

theorem test_setNext :
    (after (.setNext 1 .me2 ⟨false, true, false, true⟩) (base 9)).engines.me2.sel = ⟨false, true, false, true⟩ := by
  decide

/-! ### Wipe arithmetic: 6.2, 6.3.1, 6.5.1, 6.5.2, 6.6.1 -/

/-- The table of coordinates of 6.2. -/
theorem test_coordinates :
    normalColumn .progressive1080 960 = 2048 ∧ normalColumn .progressive1080 964 = 2056 ∧
    normalColumn .interlaced1080 1919 = 4093 ∧ normalLine .interlaced1080 true 539 = 4092 ∧
    normalLine .interlaced1080 false 100 = 758 ∧ normalLine .interlaced1080 true 100 = 762 ∧
    normalColumn .uhd2160 1500 = 1600 ∧ normalLine .uhd2160 false 700 = 1327 := by decide

/-- The table of 6.3.1. -/
theorem test_box_diamond :
    [(2048, 2048), (2048, 0), (0, 2048), (0, 0), (4093, 4092)].map (fun p : Nat × Nat =>
      (wipeDistance ⟨.box, 2048, 2048, 9⟩ p.1 p.2, wipeDistance ⟨.diamond, 2048, 2048, 9⟩ p.1 p.2)) =
      [(0, 0), (2304, 1152), (4095, 2048), (4095, 3200), (4090, 3194)] := by decide

/-- The table of 6.5.1: front 2063, border 20, softness 10. -/
theorem test_bordered_wipe :
    wipeFront 512 20 10 = 2063 ∧
    [2026, 2039, 2048, 2056, 2090].map (fun u => wipeCoefficients 2063 u 20 10) =
      [⟨1024, 0⟩, ⟨1024, 1024⟩, ⟨1024, 1024⟩, ⟨0, 651⟩, ⟨0, 0⟩] ∧
    mix 500 800 651 = 691 := by decide

/-- 6.5.2: field 800, and field 802 with reverse. -/
theorem test_diagonal_wipe :
    wipeDistance ⟨.diagonal, 2048, 2048, 16⟩ 1201 800 = 1000 ∧
    wipeCoefficients (wipeFront 256 0 64) 1000 0 64 = ⟨630, 0⟩ ∧ mix 300 700 630 = 546 ∧
    wipeCoefficients (wipeFront 768 0 64) (reversed true 1000) 0 64 = ⟨393, 0⟩ ∧ mix 300 700 393 = 454 := by
  decide

/-! ### Keyers: 7.7 -/

/-- 7.7.1. -/
theorem test_luma_key :
    keyChain ⟨.luma, 400, 48, false, 0, none, 4095, false⟩ identityCurve 520 1024 1024 = 360 ∧
    mix 200 900 360 = 446 := by decide

/-- Curve 2 of 7.7.2. -/
def curve2 : Curve := writePoints identityCurve 4 [100, 200, 220, 300, 260]

/-- 7.7.2, both pixels. -/
theorem test_linear_key :
    [274, 700].map (fun luma =>
      keyChain ⟨.linear, 64, 16, true, 2, none, 4095, false⟩ curve2 luma 1024 409) = [300, 112] ∧
    mix 520 880 300 = 625 ∧ mix 520 880 112 = 559 ∧ mix 400 600 300 = 459 := by decide

theorem test_setKey :
    (after (.setKey 1 3 ⟨.luma, 400, 5000, true, 0, none, 4095, false⟩) (base 9)).keyer 3 =
      ⟨⟨.luma, 400, 4095, true, 0, none, 4095, false⟩, false⟩ := by decide

theorem test_setMatte :
    (after (.setMatte 1 .matte2 ⟨1000, 0, 512⟩) (base 9)).generators.matte2 = ⟨940, 64, 512⟩ ∧
    (after (.setMatte 1 .matte2 ⟨1000, 0, 512⟩) (base 9)).reports.notices = [⟨1, 12, .clamped, 26⟩] := by decide

theorem test_setMonitor : (after (.setMonitor 1 (.source 30)) (base 9)).mon = .source 30 := by decide

/-! ### Tally: 8.5.1, field 500 -/

/-- The sources of a tally set. -/
def members (x : SourceSet) : List Nat := (List.range 31).filter fun n => look x n false

/-- The state of 8.3.1 before field 500. -/
def tallyState : State :=
  { base 500 with
    matrix :=
      { Matrix.reset with
        buses := #v[0, 0, 0, 0, 0, 0, 0, 0, 5, 6, 12, 13, 15, 15, 0, 0, 20, 21, 0, 0] }
    engines := { Engines.reset with me2 := Engine.reset ⟨true, true, false, false⟩ }
    keyers :=
      put (put (Vector.replicate 8 Keyer.reset) 4 { Keyer.reset with onAir := true }) 6
        { Keyer.reset with onAir := true } }

theorem test_tally_500 :
    members tallyState.programTally = [5, 15, 20, 21] ∧
    members tallyState.previewTally = [6, 12, 13, 15, 20, 21] := by decide

/-- 8.5.1, field 501: ME2 has taken its first step. -/
theorem test_tally_501 :
    members (tallyState.setEngine .me2
      { running .auto 1 102 10 ⟨true, [(3, .on)], none⟩ with sel := ⟨true, true, false, false⟩ }).programTally =
      [5, 6, 12, 13, 15, 20, 21] := by decide

/-! ### Generators and the path checker: R162, R164, 9.6 -/

/-- The first sixteen TEST samples (R164). -/
theorem test_testSamples : (List.range 16).map (testSample .progressive1080 0) =
    [66, 68, 72, 80, 96, 128, 192, 320, 64, 64, 64, 64, 64, 65, 67, 70] := by decide

/-- R162: the first and the last bar. -/
theorem test_bars :
    barsSample .progressive1080 1 = 721 ∧ barsSample .progressive1080 3839 = 64 ∧
    barsSample .progressive1080 (4 * 120) = 176 := by decide

/-- 9.6 at 2005: M = 4147200, and the WRAP figure 18444. -/
theorem test_checker_count :
    (Checker.count ⟨.locked, .lane 7, .saturate, 4, 12, 1, false, none⟩ 4147200 4147200) =
      ⟨.seeking, .lane 7, .saturate, 5, 65535, 2, true, none⟩ ∧
    (Checker.count ⟨.locked, .lane 7, .wrap, 4, 12, 1, false, none⟩ 4147200 4147200).errored = 18444 := by decide

theorem test_checker_commands :
    (after (.checkerStart 1 (.lane 7) .wrap) (base 9)).checker.state = .seeking ∧
    (after (.checkerStop 1) (after (.checkerStart 1 (.lane 7) .wrap) (base 9))).checker.state = .idle := by
  decide

/-- 9.6 at 2011: SNAPSHOT CLEAR keeps what it copies. -/
theorem test_snapshots :
    (after (.snapshotClear 1)
      { base 2012 with checker := ⟨.locked, .lane 7, .saturate, 9, 65535, 2, true, none⟩ }).checker =
      ⟨.locked, .lane 7, .saturate, 0, 0, 0, false, some ⟨.locked, 9, 65535, 2, true, 2011⟩⟩ ∧
    (after (.snapshotKeep 1)
      { base 2011 with checker := ⟨.locked, .lane 7, .saturate, 8, 65535, 2, true, none⟩ }).checker.checked = 8 := by
  decide

theorem test_checkerJudgment_idle : after .checkerJudgment (base 9) = base 9 := by decide

/-! ### Reports: 10.5, 11.5.1 -/

/-- The Report Builder of 10.5 before the ninth notice of field 702. -/
def eightNotices : Reports :=
  { Reports.reset .power with
    notices := List.replicate 8 ⟨1, 4, .busy, 1⟩
    conditions := [⟨.laneSlip, 7, 650, 660, 3, 1⟩, ⟨.controlCheck, 25, 655, 655, 1, 0⟩] }

/-- 10.5, field 702: the ninth notice records NOTICE_OVERFLOW, the tenth does not. -/
theorem test_notice_overflow :
    (eightNotices.notice ⟨2, 4, .busy, 1⟩ 702).conditions.length = 3 ∧
    ((eightNotices.notice ⟨2, 4, .busy, 1⟩ 702).notice ⟨2, 4, .busy, 1⟩ 702).overflow = 2 := by decide

/-- The state of 11.5.1 in field 704. -/
def at704 : State :=
  { base 705 with
    status := { StatusView.reset .power with number := 704 }
    reports :=
      { eightNotices with
        overflow := 3
        conditions :=
          [⟨.laneSlip, 7, 650, 660, 3, 1⟩, ⟨.controlCheck, 25, 655, 655, 1, 0⟩,
            ⟨.noticeOverflow, 0, 702, 702, 1, 0⟩]
        mask := 0x020#11 } }

/-- 11.5.1: 65 bytes; byte 44 holds 2, and the entries, the total and list-full follow. -/
theorem test_notices_payload :
    at704.noticesPayload.length = 65 ∧
    at704.noticesPayload.drop 44 =
      [2, 6, 25, 0x02, 0x8F, 0x02, 0x8F, 1, 0, 0, 10, 0, 0x02, 0xBE, 0x02, 0xBE, 1, 0, 0, 3, 0] := by decide

/-- R184: the STATUS payload is 97 bytes. -/
theorem test_status_payload : (after .outputFieldStart (base 9)).statusPayload.length = 97 := by decide +kernel

/-- 10.5 at 704: the NOTICES empties the notice list. -/
theorem test_reportFormation :
    (after .reportFormation at704).reports.notices = [] ∧
    (after .reportFormation at704).packets.length = 3 := by decide

theorem test_clearConditions :
    (after (.clearConditionsAll 1) at704).reports.conditions = [] ∧
    (after (.clearConditionsOne 1 .laneSlip 7) at704).reports.conditions.length = 2 := by decide

theorem test_setReports :
    (after (.setReports 1 ⟨true, true, false⟩ 0x020#11) (base 9)).reports.enables = ⟨true, true, false⟩ := by
  decide

/-! ### Pictures -/

/-- R165: a place that a short line leaves unfilled stays so through a mix, but for its ends. -/
theorem test_unfilled_mix :
    Sample.mix ⟨5, false⟩ (.of 3) 1024 = .of 3 ∧ Sample.mix (.of 3) ⟨5, false⟩ 0 = .of 3 ∧
    (Sample.mix ⟨5, false⟩ (.of 3) 1023).filled = false := by decide

/-- R74: a SELECT taken as a row sets the bus, and the field in progress goes on with the old one. -/
theorem test_select_row_within_a_field :
    (after (.select 1 8 4) (base 9)).bus 8 = 4 ∧ (after (.select 1 8 4) (base 9)).asShown.bus 8 = 0 := by
  decide

/-- R7: BLACK at every place up to field 0, blanking lines among them. -/
theorem test_black_before_field_0 :
    State.reset.lineSample .pgm 600 0 = 512 ∧ State.reset.lineSample .mon 600 1 = 64 := by decide

/-! ### The queue -/

theorem test_step_takes_the_front :
    (stateOf (step { base 9 with pending := [.setMonitor 1 .pvw, .silence] })).mon = .pvw ∧
    (stateOf (step { base 9 with pending := [.setMonitor 1 .pvw, .silence] })).pending = [.silence] := by decide

/-! ### Witnesses: for each obligation with hypotheses, states that meet them, clause by clause -/

theorem witness_StepRunsTheFrontCommand :
    ({ base 9 with pending := [.silence, .powerReset] } : State).pending = .silence :: [.powerReset] ∧
    (base 9).pending = [] := by decide

/-- 1125 lines: half a field period is 562500 ticks. -/
def pulseSeen (ref : RefState) : State :=
  { base 9 with timing := { (base 9).timing with ref := ref, refSeen := true, sinceRef := 500000 } }

theorem witness_ReferenceStartEntersLocking :
    ((pulseSeen .locking).timing.refSeen = true ∧
      2 * ((pulseSeen .locking).timing.sinceRef + 62499) < nominalTicks .progressive1080 false) ∧
    (nominalTicks .progressive1080 false ≤ 2 * ((pulseSeen .holdover).timing.sinceRef + 62500) ∧
      (pulseSeen .holdover).timing.ref = .holdover) ∧
    (State.reset.timing.refSeen = false ∧ State.reset.timing.ref = .absent) := by decide

theorem witness_LockingJudgesReferenceFields :
    (∀ p ∈ [(0, 0), (1, 0), (1, 562499), (1, 562500)],
      (inLocking .progressive1080 p.1 p.2).timing.ref = .locking ∧
      nominalTicks .progressive1080 false ≤
        2 * ((inLocking .progressive1080 p.1 p.2).timing.sinceRef + 0) ∧
      (True ↔ (inLocking .progressive1080 p.1 p.2).timing.refLines + 563 =
          nominalLines .progressive1080 false ∧
        (Format.progressive1080 = .interlaced1080 → some true ≠ some false)) ∧
      (inLocking .progressive1080 p.1 p.2).timing.good = p.1) ∧
    (False ↔ (inLocking .progressive1080 0 0).timing.refLines + 0 =
          nominalLines .progressive1080 false ∧
        (Format.progressive1080 = .interlaced1080 → some true ≠ some false)) ∧
    2 * ((inLocking .progressive1080 1 562499).timing.sinceField + 0) <
      nominalTicks .progressive1080 false ∧
    nominalTicks .progressive1080 false ≤
      2 * ((inLocking .progressive1080 1 562500).timing.sinceField + 0) ∧
    (inLocking .progressive1080 1 562500).waiting.entries = [] ∧
    (True ↔ (inLocking .interlaced1080 1 562500).timing.refLines + 1 =
          nominalLines .interlaced1080 false ∧
        (Format.interlaced1080 = .interlaced1080 → some true ≠ some false)) := by decide

theorem witness_LockedFollowsTheReference :
    (∀ p ∈ [(false, 0, 0), (true, 0, 562499), (true, 0, 562500), (false, 1, 1124999), (false, 1, 1125000)],
      (inLocked p.1 p.2.1 p.2.2).timing.ref = .locked ∧
      nominalTicks .progressive1080 false ≤
        2 * ((inLocked p.1 p.2.1 p.2.2).timing.sinceRef + 0) ∧
      (True ↔ (inLocked p.1 p.2.1 p.2.2).timing.refLines + 1125 = nominalLines .progressive1080 false ∧
        (Format.progressive1080 = .interlaced1080 → (none : Option Parity) ≠ some false)) ∧
      (False ↔ (inLocked p.1 p.2.1 p.2.2).timing.refLines + 1124 = nominalLines .progressive1080 false ∧
        (Format.progressive1080 = .interlaced1080 → (none : Option Parity) ≠ some false)) ∧
      (inLocked p.1 p.2.1 p.2.2).timing.aligning = p.1 ∧
      (inLocked p.1 p.2.1 p.2.2).timing.wrong = p.2.1) ∧
    2 * ((inLocked true 0 562499).timing.sinceField + 0) < nominalTicks .progressive1080 false ∧
    nominalTicks .progressive1080 false ≤ 2 * ((inLocked true 0 562500).timing.sinceField + 0) ∧
    (inLocked true 0 562500).waiting.entries = [] ∧
    ({ (inLocked true 0 562500).timing with format := .interlaced1080 } : Timing).format =
      .interlaced1080 ∧
    (inLocked false 1 1124999).timing.sinceField + 0 < (1125000 + 1125000) / 2 ∧
    (1125000 + 1125000) / 2 ≤ (inLocked false 1 1125000).timing.sinceField + 0 ∧
    (inLocked false 1 1125000).waiting.entries = [] := by decide

theorem witness_SilenceActsByTheReferenceState :
    State.reset.timing.silent = true ∧
    (∀ r ∈ [RefState.absent, .holdover, .locking],
      ({ pulseSeen r with timing := { (pulseSeen r).timing with silent := false } } : State).timing.ref =
        r) ∧
    ({ (inLocked false 0 0).timing with silent := false } : Timing).ref = .locked ∧
    0 + (2 * nominalTicks .progressive1080 false - 1125001) < (1125000 + 1125000) / 2 ∧
    (1125000 + 1125000) / 2 ≤ 0 + (2 * nominalTicks .progressive1080 false - 1125000) ∧
    (inLocked false 0 0).waiting.entries = [] := by decide

theorem witness_EnterLockedAndEnterHoldover :
    (base 9).timing.ref ≠ .locking ∧ (base 9).timing.ref ≠ .locked ∧
    ((inLocking .progressive1080 1 562500).timing.ref = .locking ∧
      (inLocking .progressive1080 1 562500).timing.sinceRef ≠ 0) ∧
    (({ (inLocking .progressive1080 1 562499).timing with sinceRef := 0 } : Timing).ref = .locking ∧
      2 * ({ (inLocking .progressive1080 1 562499).timing with sinceRef := 0 } : Timing).sinceField <
        nominalTicks .progressive1080 false) ∧
    (({ (inLocking .progressive1080 1 562500).timing with sinceRef := 0 } : Timing).refSeen = true ∧
      nominalTicks .progressive1080 false ≤
        2 * ({ (inLocking .progressive1080 1 562500).timing with sinceRef := 0 } : Timing).sinceField) ∧
    (inLocked false 0 1124999).timing.sinceField < (1125000 + 1125000) / 2 ∧
    (1125000 + 1125000) / 2 ≤ (inLocked false 0 1125000).timing.sinceField ∧
    (inLocked false 0 1125000).waiting.entries = [] ∧
    (inLocking .progressive1080 1 562500).waiting.entries = [] := by decide

/-- The premise `startsField` of the statements about field starts: each row that raises an output field
start, in a state where it does. -/
theorem witness_startsField_free (n : FieldNo) : (base n).startsField .outputFieldStart := by
  show (base n).timing.ref ≠ .locked
  simp [base, Timing.reset]

theorem witness_startsField_rows :
    (inLocked true 0 0).startsField .alignmentSearchTimeout ∧
    ({ inLocked false 0 1125000 with
        timing := { (inLocked false 0 1125000).timing with silent := false } } : State).startsField
      .silence ∧
    ({ inLocking .progressive1080 1 562500 with
        timing := { (inLocking .progressive1080 1 562500).timing with sinceRef := 0 } } :
      State).startsField .enterLocked ∧
    (inLocked false 0 1125000).startsField (.enterHoldover .silence) := by
  refine ⟨⟨rfl, rfl⟩, ⟨rfl, rfl, ?_⟩, ⟨rfl, rfl, rfl, ?_⟩, ⟨rfl, ?_⟩⟩ <;> decide

theorem witness_startsField_pulse :
    (inLocking .progressive1080 1 562500).startsField (.fieldPulse 0 563 false) ∧
    (inLocked false 0 0).startsField (.fieldPulse 0 1124 false) ∧
    (inLocked true 0 562500).startsField (.fieldPulse 0 1125 false) ∧
    (inLocked false 1 1125000).startsField (.fieldPulse 0 1124 false) := by
  refine ⟨⟨?_, _, _, _, Iff.rfl, Iff.rfl, Iff.rfl, .inl ?_⟩,
    ⟨?_, _, _, _, Iff.rfl, Iff.rfl, Iff.rfl, .inr (.inl ?_)⟩,
    ⟨?_, _, _, _, Iff.rfl, Iff.rfl, Iff.rfl, .inr (.inl ?_)⟩,
    ⟨?_, _, _, _, Iff.rfl, Iff.rfl, Iff.rfl, .inr (.inr ?_)⟩⟩ <;> decide

theorem witness_FieldStartTakesNumberAndParity :
    (base 9).timing.ref ≠ .locked ∧
    ((inLocked true 0 0).timing.ref = .locked ∧ (inLocked true 0 0).timing.aligning = true) ∧
    (inLocked false 0 0).timing.ref = .locked ∧
    ¬((inLocked false 0 0).timing.ref = .locked ∧ (inLocked false 0 0).timing.aligning = true) ∧
    (∀ e ∈ (waitingFor [⟨.snapshotKeep, 1, 10⟩] (base 9)).waiting.entries, e.due ≠ 9) ∧
    (∀ e ∈ (waitingFor [⟨.snapshotKeep, 1, 10⟩] (base 9)).waiting.entries,
      e.command.admissible = true ∧ e.command.atArrival = false) := by decide

/-- Entries due at 9, at 9 and at the last field ahead of 9. -/
def threeEntries (c : Command) : State :=
  waitingFor [⟨.snapshotKeep, 1, 9⟩, ⟨c, 2, 9⟩, ⟨.checkerStop, 3, 32776⟩] (base 9)

theorem witness_FieldStartReleasesTheDueEntries :
    ((threeEntries .snapshotClear).startsField .outputFieldStart ∧
      (threeEntries .engineReset).startsField .outputFieldStart) ∧
    (∀ c ∈ [Command.snapshotClear, .engineReset],
      (threeEntries c).listOrdered ∧ (threeEntries c).entriesAdmissible) ∧
    (∀ e ∈ (threeEntries .snapshotClear).waiting.entries, e.due = 9 → e.command ≠ .engineReset) ∧
    (∃ e ∈ (threeEntries .engineReset).waiting.entries, e.due = 9 ∧ e.command = .engineReset) := by
  refine ⟨⟨?_, ?_⟩, ?_⟩
  · show (threeEntries .snapshotClear).timing.ref ≠ .locked; decide
  · show (threeEntries .engineReset).timing.ref ≠ .locked; decide
  · unfold State.listOrdered State.entriesAdmissible; decide

/-- A state at field 3100 with ME2 in a state of its engine and entries due at the field. -/
def atExchange (x : Engine) (l : List Entry) : State :=
  waitingFor l ((withPair 4 7 (base 3100)).setEngine .me2 x)

theorem witness_SelectPrecedesTheExchange :
    (base 3100).startsField .outputFieldStart ∧ bankA .me2 = 8 ∧
    (fun s : State =>
      (∀ e ∈ s.waiting.entries, e.due = s.timing.counter ∧ s.selectsEnabled e) ∧
      s.matrix.exchanges .me2 = 0 ∧ s.lastStep .me2 (mixRun bkgd 25) ∧ bkgd.bkgd = true)
      (atExchange (running .auto 24 983 25 bkgd) [⟨.select 9 12, 1, 3100⟩, ⟨.select 8 13, 2, 3100⟩]) ∧
    (fun s : State =>
      s.waiting.entries = [⟨.select 9 12, 1, 3100⟩] ++ ⟨.lever .me2 1024, 2, 3100⟩ ::
        [⟨.select 8 13, 2, 3100⟩] ∧
      (s.engine .me2).state = .lever ∧ (s.engine .me2).run = some (mixRun bkgd 25) ∧
      (match (s.engine .me2).lever.sense with | .up => 1024 | .down => 1024 - 1024) = 1024)
      (atExchange (running .lever 0 1023 25 bkgd)
        [⟨.select 9 12, 1, 3100⟩, ⟨.lever .me2 1024, 2, 3100⟩, ⟨.select 8 13, 2, 3100⟩]) ∧
    (∀ f : EngineId, f.isIn 2#5 = decide (f = .me2)) ∧
    (fun s : State =>
      s.waiting.entries.countP (fun e => e.command == .cut 2#5) = 2 ∧
      (s.engine .me2).state = .idle ∧ (s.engine .me2).sel.bkgd = true)
      (atExchange (Engine.reset ⟨true, false, false, false⟩)
        [⟨.cut 2#5, 1, 3100⟩, ⟨.select 9 12, 1, 3100⟩, ⟨.cut 2#5, 2, 3100⟩]) := by
  refine ⟨witness_startsField_free 3100, rfl, ⟨?_, rfl, ⟨rfl, rfl, rfl⟩, rfl⟩, ⟨rfl, rfl, rfl, rfl⟩, ?_, ?_⟩
  · intro e he
    rcases List.mem_cons.1 he with rfl | he
    · exact ⟨rfl, 9, 12, rfl, by decide⟩
    · rcases List.mem_cons.1 he with rfl | he
      · exact ⟨rfl, 8, 13, rfl, by decide⟩
      · cases he
  · intro f; cases f <;> rfl
  · decide

/-- ME2 one step short of completing the background with two keys, FTB one short of black. -/
def completing : State :=
  ((base 9).setEngine .me2 (running .auto 24 983 25 ⟨true, [(3, .on), (5, .off)], none⟩)).setEngine
    .ftb
    { Engine.reset ⟨false, false, false, false⟩ with
      state := .auto, j := 24, q := 983
      run :=
        some
          ⟨⟨false, [], some .toBlack⟩, ⟨.mix, 25, 0, 0, 0, .matte1, false⟩, none, .auto⟩ }

theorem completing_wf : completing.engines.wf := by
  refine ⟨fun e => ?_, fun e he => ?_⟩
  · cases e <;> simp [Engine.wf, completing, State.setEngine, Engines.set, base, State.reset,
      State.resetBy, Engines.get, running, mixRun, Engine.reset, Engines.reset, NextSettings.reset,
      LeverRecord.reset, LeverRecord.effective, RunRecord.belongsTo, EngineId.isMe]
    rintro a b (⟨rfl, rfl⟩ | ⟨rfl, rfl⟩) <;> decide
  · cases e <;> simp [EngineId.isMe, Engine.downstream, completing, State.setEngine, Engines.set,
      base, State.reset, State.resetBy, Engines.get, Engines.reset, Engine.reset,
      NextSettings.reset] at he ⊢

theorem witness_FieldStartStepsTheEngines :
    completing.startsField .outputFieldStart ∧ completing.waiting.entries = [] ∧
    (completing.engine .me1).state ≠ .auto ∧
    ((running .auto 23 942 25 bkgd).state = .auto ∧
      (running .auto 23 942 25 bkgd).j + 1 ≠ (mixRun bkgd 25).settings.rate) ∧
    completing.engines.wf ∧
    completing.lastStep .me2 (mixRun ⟨true, [(3, .on), (5, .off)], none⟩ 25) ∧
    (∃ r, completing.lastStep .ftb r ∧ r.elements.fade = some .toBlack) ∧
    (completing.matrix.exchange1 = 0 ∧ completing.matrix.exchange2 = 0) := by
  exact ⟨witness_startsField_free 9, rfl, by decide, by decide, completing_wf, ⟨rfl, rfl, rfl⟩,
    ⟨_, ⟨rfl, rfl, rfl⟩, rfl⟩, rfl, rfl⟩

theorem witness_FieldStartWatchesTheLanes :
    (base 9).startsField .outputFieldStart ∧ (inLocked true 0 0).startsField .alignmentSearchTimeout ∧
    (inLocked false 0 1125000).startsField (.enterHoldover .silence) ∧
    ((inLocked false 0 1125000).timing.ref = .locked ∧
      (after (.enterHoldover .silence) (inLocked false 0 1125000)).timing.ref = .holdover) ∧
    (base 9).waiting.entries = [] ∧ (inLocked true 0 0).waiting.entries = [] ∧
    (inLocked false 0 1125000).waiting.entries = [] ∧ isLane 1 = true ∧ isLane 25 = true ∧
    ((base 9).lane 1).state = .down ∧
    (∀ p ∈ [(true, 0), (false, 0), (false, 1)],
      ((withLane 25 { timedLane 0 16 false with seen := p.1, missed := p.2 } (base 9)).lane 25).state ≠
          .down ∧
      ((withLane 25 { timedLane 0 16 false with seen := p.1, missed := p.2 } (base 9)).lane 25).missed =
        p.2) :=
  ⟨witness_startsField_free 9, ⟨rfl, rfl⟩, ⟨rfl, by decide⟩, ⟨rfl, by decide +kernel⟩, by decide⟩

theorem witness_OpeningLaneStartGoesToSeek :
    isLane 25 = true ∧ ((base 9).lane 25).state = .down ∧
    (((base 9).setLane 1 { Lane.reset with state := .seek, unjudged := true }).lane 1).state = .seek ∧
    (((base 9).setLane 1 { Lane.reset with state := .seek, unjudged := true }).lane 1).unjudged = true := by
  decide

/-- A lane in SEEK or UNTIMED with a match count and a candidate of 0, 1125 lines received. -/
def seeking (state : LaneState) (matchCount : Nat) (candidate : Int) (lines : Nat) : Lane :=
  { Lane.reset with state := state, matchCount := matchCount, candidate := candidate, lines := lines }

theorem witness_SeekJudgesTheLaneField :
    (∀ p ∈ [(0, 0, 1124), (0, 0, 1125), (1, 7, 1125), (1, 8, 1125), (1, 9, 1125)],
      ((withLane 1 (seeking .seek p.1 p.2.1 p.2.2) (base 9)).lane 1).state = .seek ∧
      ((withLane 1 (seeking .seek p.1 p.2.1 p.2.2) (base 9)).lane 1).unjudged = false) ∧
    (8 : Int) = (if 2 * 8 < nominalLines .progressive1080 false then ((8 : Nat) : Int)
      else (8 : Nat) - (nominalLines .progressive1080 false : Int)) ∧
    (-1 : Int) = ((seeking .seek 0 0 1124).lines : Int) - (nominalLines .progressive1080 false : Int) ∧
    (0 : Int) = ((seeking .seek 0 0 1125).lines : Int) - (nominalLines .progressive1080 false : Int) ∧
    (8 : Int).natAbs ≤ (seeking .seek 1 8 1125).settings.window ∧
    (seeking .seek 1 9 1125).settings.window < (9 : Int).natAbs := by decide

theorem witness_TimedLaneStaysSlipsOrLeaves :
    (∀ p ∈ [false, true], ((withLane 7 (timedLane 8 8 p) (base 9)).lane 7).state = .timed) ∧
    (∀ d ∈ [7, 8, 9], (d : Int) = (if 2 * d < nominalLines .progressive1080 false then (d : Int)
      else (d : Int) - (nominalLines .progressive1080 false : Int))) ∧
    (-562 : Int) = (if 2 * 563 < nominalLines .progressive1080 false then ((563 : Nat) : Int)
      else (563 : Nat) - (nominalLines .progressive1080 false : Int)) ∧
    ((timedLane 8 8 false).settings.window = 8 ∧ (timedLane 8 8 false).lateness = 8) ∧
    ({ timedLane 8 8 false with matchedCurrent := some ⟨.timed, true⟩ } : Lane).matchedCurrent ≠ none ∧
    (timedLane 8 8 false).matchedCurrent = none ∧
    (2 * 562 < nominalLines .progressive1080 false ∧ nominalLines .progressive1080 false ≤ 2 * 563) := by
  decide

theorem witness_UntimedLaneReturnsInsideTheWindow :
    (∀ p ∈ [(0, 0, 1124), (0, 0, 1125), (1, 7, 1125), (1, 8, 1125)],
      ((withLane 1 (seeking .untimed p.1 p.2.1 p.2.2) (base 9)).lane 1).state = .untimed) ∧
    (8 : Int) = (if 2 * 8 < nominalLines .progressive1080 false then ((8 : Nat) : Int)
      else (8 : Nat) - (nominalLines .progressive1080 false : Int)) ∧
    (0 : Int) = ((seeking .untimed 0 0 1125).lines : Int) - (nominalLines .progressive1080 false : Int) ∧
    (8 : Int).natAbs ≤ (seeking .untimed 1 8 1125).settings.window ∧
    (seeking .untimed 1 9 1125).settings.window < (9 : Int).natAbs := by decide

theorem witness_BadLinesSendTheLaneToSeek :
    (4 * 0 + 3 < (List.replicate 4 (0 : LinkWord)).length ∧
      (List.replicate 3 (0 : LinkWord)).length ≤ 4 * (2 / 4) + 3) ∧
    isLane 1 = true ∧ ((base 9).lane 1).state = .down ∧
    (∀ b ∈ [2, 3, 4],
      ((withLane 7 { timedLane 8 8 false with bad := b } (base 9)).lane 7).state ≠ .down) ∧
    ([] : Line).length ≠ 2 * width .progressive1080 ∧
    (2 + 1 < (timedLane 8 8 false).limitInForce ∧ 3 + 1 = (timedLane 8 8 false).limitInForce ∧
      (timedLane 8 8 false).limitInForce ≤ 4) ∧
    ((List.replicate 3840 (0 : LinkWord)).length = 2 * width .progressive1080) ∧
    (isLane 25 = true ∧ ((listening (base 9)).lane 25).state ≠ .down) := by decide +kernel

/-- R17, R18: a line of lane C is counted and not kept, whatever its chroma swap. -/
theorem test_lane_c_line_is_not_kept :
    (fun l : Lane => l.lines = 1 ∧ l.pictureCurrent = [] ∧ l.pictureNext = [])
      ((after (.laneLine 25 [] 0)
        (withLane 25 { timedLane 3 13 false with lines := 0, stored := true, target := .current }
          (base 9))).lane 25) := by decide +kernel

theorem witness_LaneErrorsAndLaneDown :
    isLane 1 = true ∧ isLane 25 = true ∧ ((base 9).lane 1).state = .down ∧
    ((listening (base 9)).lane 25).state ≠ .down := by decide

theorem witness_PresentationPointMakesTheDecisions :
    State.reset.timing.started = false ∧
    (base 9).timing.started = true ∧ (base 9).timing.presented = false ∧
    (after .presentationPoint (base 9)).timing.presented = true := by decide

theorem witness_SetLaneAndReseek :
    (isLane 25 = true ∧ (listening (base 9)).receiverWf ∧ (base 9).receiverWf ∧
      1 ≤ (⟨.black, 17, 15, true⟩ : LaneSettings).limit ∧
      (⟨.black, 17, 15, true⟩ : LaneSettings).limit ≤ 15) ∧
    isLane 1 = true ∧ (∃ n, (0x03FFFFFE#32 : LaneSet).getLsbD n = true) ∧
    (∀ n < 32, (0x03FFFFFE#32 : LaneSet).getLsbD n = true → 1 ≤ n ∧ n ≤ 25) := by
  unfold State.receiverWf
  refine ⟨by decide, by decide, ⟨1, by decide⟩, by decide⟩

theorem witness_SetFormatTakesEffectWhenAllIdle :
    (((base 9).setEngine .ftb (running .paused 1 40 25 bkgd)).engine .ftb).state ≠ .idle ∧
    (∀ e : EngineId, ((base 9).engine e).state = .idle) := by
  refine ⟨by decide, fun e => ?_⟩
  cases e <;> rfl

theorem witness_FramedPacketIsACommandArrival :
    ∀ n ∈ [6, 248],
      ({ listening (base 9) with receiver := ⟨15, 0, none⟩ } : State).takesPackets = true ∧
      ({ listening (base 9) with receiver := ⟨15, 0, none⟩ } : State).receiver.taken < 16 ∧
      6 ≤ (List.replicate n (0 : Byte)).length ∧ (List.replicate n (0 : Byte)).length ≤ 248 := by
  decide +kernel

theorem witness_PacketsThatAreNotAccepted :
    (base 9).takesPackets = false ∧ (listening (base 9)).takesPackets = true ∧
    ([0x000#10] : List LinkWord).take 4 ≠ [0x3FE#10, 0x001#10, 0x25A#10, 0x1C3#10] ∧
    ((0x205#10 : LinkWord).toNat % 256 < 6 ∧ 248 < (0x2F9#10 : LinkWord).toNat % 256) ∧
    ((0x206#10 : LinkWord).toNat % 256 = 6 ∧ (0x1F8#10 : LinkWord).toNat % 256 = 248) ∧
    (List.replicate 6 (0x200#10 : LinkWord)).length = 6 ∧
    checkWord ([0x25A#10, 0x1C3#10, 0x206#10] ++ List.replicate 6 0x200#10) ≠ 0#10 ∧
    16 ≤ ({ listening (base 9) with receiver := ⟨16, 255, none⟩ } : State).receiver.taken ∧
    ({ listening (base 9) with receiver := ⟨16, 255, some []⟩ } : State).receiver.inReception ≠ none ∧
    (base 9).receiver.inReception = none := by decide

theorem witness_ArrivalTestsRefuseInOrder :
    (byteAt [0#8] 0 = 0 ∧ 28 ≤ byteAt [28#8] 0) ∧
    (byteAt [27#8] 0 ≤ 27 ∧ payloadLength [27#8] ≠ some 1) ∧
    (payloadLength (encodePayload 1 none (.select 20 0)) =
        some (encodePayload 1 none (.select 20 0)).length ∧
      ¬payloadInSets (encodePayload 1 none (.select 20 0))) ∧
    (payloadLength [2#8, 0, 1, 0, 0, 0, 2, 0] = some 8 ∧
      ¬payloadInSets [2#8, 0, 1, 0, 0, 0, 2, 0]) ∧
    (payloadLength [27#8, 0, 1, 2, 0, 0] = some 6 ∧ 2 ≤ byteAt [27#8, 0, 1, 2, 0, 0] 3) ∧
    (∀ p ∈ [(7, 29), (0, 30), (8, 30), (19, 30)],
      payloadInSets (encodePayload 1 none (.select p.1 p.2)) ∧
      (p.1 ≤ 7 ∧ 29 ≤ p.2 ∨ 8 ≤ p.1 ∧ p.2 = 30)) ∧
    (payloadInSets (encodePayload 1 none (.select 19 29)) ∧ ¬(19 ≤ 7 ∧ 29 ≤ 29 ∨ 8 ≤ 19 ∧ 29 = 30)) := by
  refine ⟨by decide, by decide, ⟨by decide, ?_⟩, ⟨by decide, ?_⟩, by decide, ?_, ?_, by decide⟩
  · show ¬(byteAt (encodePayload 1 none (.select 20 0)) 6 ≤ 19 ∧ _); decide
  · show ¬(byteAt [2#8, 0, 1, 0, 0, 0, 2, 0] 6 ≤ 1 ∧ _); decide
  · intro p hp
    simp only [List.mem_cons, List.not_mem_nil, or_false] at hp
    rcases hp with rfl | rfl | rfl | rfl <;> exact ⟨⟨by decide, by decide⟩, by decide⟩
  · exact ⟨by decide, by decide⟩

theorem witness_ArrivalsAreClassifiedByDueField :
    (validate (encodePayload 1 none .snapshotKeep) = .passed .snapshotKeep none ∧
      validate (encodePayload 1 (some 32776) .snapshotKeep) = .passed .snapshotKeep (some 32776) ∧
      validate (encodePayload 1 (some 7) .snapshotKeep) = .passed .snapshotKeep (some 7)) ∧
    (Command.snapshotKeep.atArrival = false ∧ Command.snapshotKeep.clamp = .snapshotKeep) ∧
    ((9 - 9 : FieldNo).toNat ≤ 32767 ∧ (32776 - 9 : FieldNo).toNat ≤ 32767 ∧
      65534 ≤ (7 - 9 : FieldNo).toNat) ∧
    (32768 ≤ (32777 - 9 : FieldNo).toNat ∧ (6 - 9 : FieldNo).toNat ≤ 65533) ∧
    ((waitingFor (List.replicate 63 ⟨.snapshotKeep, 0, 9⟩) (base 9)).waiting.entries.length < 64 ∧
      64 ≤ (waitingFor (List.replicate 64 ⟨.snapshotKeep, 0, 9⟩) (base 9)).waiting.entries.length ∧
      (waitingFor (List.replicate 46 ⟨.snapshotKeep, 0, 9⟩) (base 9)).waiting.entries.length < 47) ∧
    (validate (encodePayload 1 (some 8) (.force .me1 1025)) = .passed (.force .me1 1025) (some 8) ∧
      (Command.force .me1 1025).clamp ≠ .force .me1 1025 ∧ 65534 ≤ (8 - 9 : FieldNo).toNat) := by
  decide +kernel

theorem witness_EncodedCommandIsReadBack :
    ∀ c ∈ [Command.select 19 29, .loadCurve 7 0 (List.replicate 33 1024), .bypass none, .engineReset],
      c.admissible = true := by decide

theorem witness_QueuedCommandReachesTheList :
    (fun s : State =>
      (Command.select 9 4).admissible = true ∧ (Command.select 9 4).atArrival = false ∧
      s.takesPackets = true ∧ s.receiver.taken < 16 ∧ s.waiting.entries.length < 64 ∧
      (32776 - s.timing.counter : FieldNo).toNat ≤ 32767)
      { waitingFor (List.replicate 63 ⟨.snapshotKeep, 0, 9⟩) (listening (base 9)) with
        receiver := ⟨15, 0, none⟩ } := by decide

theorem witness_PurgeAndBypassActAtOnce :
    (∀ n, some 28 = some n → n ≤ 28) ∧ (∀ n, (none : Option Nat) = some n → n ≤ 28) := by
  refine ⟨fun n h => ?_, fun n h => by cases h⟩
  injection h with h
  omega

theorem witness_CommandRowsAreValidatedAndClamped :
    ((Instr.select 1 20 0).command? = some (1, .select 20 0) ∧ ¬inValueSets (.select 20 0)) ∧
    ((Instr.select 1 7 29).command? = some (1, .select 7 29) ∧
      (7 ≤ 19 ∧ 29 ≤ 30 ∧ (7 ≤ 7 ∧ 29 ≤ 29 ∨ 8 ≤ 7 ∧ 29 = 30))) ∧
    ((Instr.force 1 .me1 1025).command? = some (1, .force .me1 1025) ∧ inValueSets (.force .me1 1025) ∧
      (Command.force .me1 1025).clamp ≠ .force .me1 1025) ∧
    ((Instr.force 1 .me1 1024).command? = some (1, .force .me1 1024) ∧
      (Command.force .me1 1024).clamp = .force .me1 1024) := by
  refine ⟨⟨rfl, fun h => ?_⟩, by decide, ⟨rfl, trivial, by decide⟩, by decide⟩
  exact absurd h.1 (by decide)

theorem witness_LoadsAndCommit :
    (15 ≤ 15 ∧ 4095 ≤ 4095 ∧ 1 ≤ 64 ∧ 64 ≤ 64 ∧ 30 ≤ 30) ∧
    (7 ≤ 7 ∧ ([1024] : List Nat) ≠ [] ∧ 32 + ([1024] : List Nat).length ≤ 33 ∧
      ∀ p ∈ ([1024] : List Nat), p ≤ 1024) ∧
    ((⟨false, false, true⟩ : TableSet).shapes = true ∨ (⟨false, false, true⟩ : TableSet).curves = true ∨
      (⟨false, false, true⟩ : TableSet).sources = true) := by decide

theorem witness_SelectSetsTheBus :
    ((7 : Nat) ≤ 19 ∧ (7 ≤ 7 → 28 ≤ 28) ∧ 28 ≤ 29 ∧ ((base 9).source 28).enabled = true) ∧
    ((19 : Nat) ≤ 19 ∧ ((19 : Nat) ≤ 7 → 29 ≤ 28) ∧ 29 ≤ 29) ∧
    (({ base 9 with
        tables := { Tables.reset with sources := put resetSources 4 ⟨false, false, false⟩ } } : State).source
        4).enabled = false := by decide

theorem witness_NextSettingsAndSelectionAreStaged :
    (15 ≤ 15 ∧ 255 ≤ 255) ∧ (EngineId.me1.isMe = true ∧ EngineId.ftb.isMe = false) ∧ 999 < 1000 := by
  decide

theorem witness_TakeStartsEachIdleEngine :
    (31#5 : EngineSet) ≠ 0#5 ∧
    (∀ e ∈ EngineId.all, ((base 9).engine e).next.rate ≠ 0) ∧
    (EngineId.me1.isIn 31#5 = true ∧ ((base 9).engine .me1).state = .idle ∧
      (base 9).nothingNext .me1 = false) ∧
    ((base 9).setEngine .me1 (Engine.reset ⟨false, false, false, false⟩)).nothingNext .me1 = true ∧
    (((base 9).setEngine .me2 (running .lever 0 1 25 bkgd)).engine .me2).state ≠ .idle := by decide

theorem witness_CutCompletesTheRun :
    (∀ f : EngineId, f.isIn 2#5 = decide (f = .me2)) ∧
    ((((base 9).setEngine .me2 (running .lever 0 1 25 ⟨true, [(3, .on), (5, .off)], none⟩)).engine .me2).state ≠
        .idle ∧
      ((mixRun ⟨true, [(3, .on), (5, .off)], none⟩ 25).elements.keys.map Prod.fst).Nodup) ∧
    (((base 9).engine .me2).state = .idle ∧ (base 9).nothingNext .me2 = false) ∧
    ({ Engine.reset ⟨true, false, false, false⟩ with
        next := { NextSettings.reset with rate := 0 } } : Engine).next.rate = 0 ∧
    ((base 9).setEngine .me2 (Engine.reset ⟨false, false, false, false⟩)).nothingNext .me2 = true ∧
    ((31#5 : EngineSet) ≠ 0#5 ∧ completing.engines.wf ∧ completing.refusesEmpty .me1 = false ∧
      (completing.setEngine .me1 (Engine.reset ⟨false, false, false, false⟩)).refusesEmpty .me1 = true) ∧
    (completing.cutElements .ftb).fade = some .toBlack := by
  refine ⟨fun f => ?_, by decide, by decide, by decide, by decide,
    ⟨by decide, completing_wf, by decide, by decide⟩, by decide⟩
  cases f <;> rfl

theorem witness_HoldResumeReleaseAndForce : (31#5 : EngineSet) ≠ 0#5 := by decide

/-- ME1 in IDLE with a lever record and a next selection. -/
def idleLever (lever : LeverRecord) (sel : NextSel) : Engine := { Engine.reset sel with lever := lever }

theorem witness_LeverFromIdle :
    (∀ w ∈ [(LeverRecord.mk 0 .up false, 0, 0), (⟨1024, .down, true⟩, 1, 1023), (⟨0, .up, false⟩, 1024, 1024),
        (⟨0, .up, false⟩, 1, 1), (⟨0, .up, false⟩, 1023, 1023), (⟨1024, .down, false⟩, 0, 1024)],
      w.2.1 ≤ 1024 ∧ ((base 9).setEngine .me1 (idleLever w.1 ⟨true, false, false, false⟩)).engine .me1 =
        idleLever w.1 ⟨true, false, false, false⟩ ∧
      (idleLever w.1 ⟨true, false, false, false⟩).state = .idle ∧
      ((base 9).setEngine .me1 (idleLever w.1 ⟨true, false, false, false⟩)).nothingNext .me1 = false ∧
      w.2.2 = (match w.1.sense with | .up => w.2.1 | .down => 1024 - w.2.1)) ∧
    ((base 9).setEngine .me1 (idleLever ⟨0, .up, false⟩ ⟨false, false, false, false⟩)).nothingNext .me1 =
      true := by decide

theorem witness_LeverMovesAndPicksUpARun :
    ∀ w ∈ [(running .lever 0 300 25 bkgd, 0), (running .lever 0 300 25 bkgd, 1023),
        (running .lever 0 300 25 bkgd, 1024), (running .auto 9 368 25 bkgd, 367),
        (running .auto 9 368 25 bkgd, 368), (running .paused 9 368 25 bkgd, 1024),
        (running .paused 0 0 25 bkgd, 0)],
      w.2 ≤ 1024 ∧ ((base 9).setEngine .me1 w.1).engine .me1 = w.1 ∧ w.1.state ≠ .idle ∧
      w.1.run = some (mixRun bkgd 25) ∧
      w.2 = (match w.1.lever.sense with | .up => w.2 | .down => 1024 - w.2) ∧
      ((mixRun bkgd 25).elements.keys.map Prod.fst).Nodup := by decide

theorem witness_KeyMatteAndMonitorSettings :
    ∀ k : KeySettings, k = ⟨.luma, 1023, 15, true, 7, some 15, 4095, true⟩ →
      7 ≤ 7 ∧ k.clip ≤ 1023 ∧ k.curve ≤ 7 ∧ (∀ m, k.maskShape = some m → m ≤ 15) ∧ k.maskSize ≤ 4095 ∧
      ∀ n, MonPoint.source 30 = .source n → n ≤ 30 := by
  rintro k rfl
  refine ⟨by decide, by decide, by decide, fun m h => ?_, by decide, fun n h => ?_⟩ <;>
    (injection h; omega)

theorem witness_CheckerAndSnapshotCommands :
    ∀ k ∈ [1, 24], ∀ n, CheckPoint.lane k = .lane n → 1 ≤ n ∧ n ≤ 24 := by
  intro k hk n h
  injection h with h
  subst h
  revert k
  decide

theorem witness_JudgmentLocksAndCounts :
    State.reset.timing.started = false ∧ (base 9).checker.state = .idle ∧
    (base 9).timing.started = true ∧
    (∀ st ∈ [CheckerState.seeking, .locked],
      ({ base 9 with checker := { Checker.reset with state := st } } : State).checker.state = st) ∧
    (65535 ≤ 65535 ∧ ({ Checker.reset with checked := 65535 } : Checker).checked ≤ 65535) ∧
    (({ Checker.reset with point := .mon } : Checker).point = .mon ∧
      ({ Checker.reset with point := .lane 24 } : Checker).point = .lane 24 ∧ 1 ≤ 24 ∧ 24 ≤ 24) := by
  decide

/-- A condition list of 31 or 32 entries. -/
def fullList (n : Nat) : Reports :=
  { Reports.reset .power with
    conditions := (List.range n).map fun i => ⟨.laneDown, i, 1, 1, 1, 0⟩ }

theorem witness_PostingOfConditionsAndNotices :
    (fullList 31).wf ∧ (fullList 32).wf ∧
    (∃ c ∈ (fullList 31).conditions, c.kind = .laneDown ∧ c.subject = 30) ∧
    (∀ c ∈ (fullList 31).conditions, ¬(c.kind = .laneSlip ∧ c.subject = 30)) ∧
    (fullList 31).conditions.length < 32 ∧ (fullList 32).conditions.length = 32 ∧
    eightNotices.notices.length = 8 ∧ eightNotices.overflow = 0 := by
  unfold Reports.wf
  decide +kernel

theorem witness_ClearConditionsAndSetReports : (25 : Nat) ≤ 25 := by decide

theorem witness_ReportsAreFormedInOrder :
    State.reset.timing.started = false ∧ at704.timing.started = true ∧
    (at704.reports.enables.notices = true ∧ at704.reports.notices ≠ []) ∧
    ((base 9).reports.notices = [] ∧ (base 9).reports.overflow = 0 ∧
      (base 9).reports.conditions = [] ∧ (base 9).reports.listFull = false) ∧
    (base 9).status.engines.length = 5 := by decide

theorem witness_FieldStartFormsTallyAndStatus :
    (base 9).startsField .outputFieldStart ∧
    (((after .outputFieldStart completing).engine .me1).state = .idle ∧
      ((after .outputFieldStart completing).engine .me1).force = none) ∧
    (fun x : Engine => x.state ≠ .idle ∧ x.run ≠ none ∧ x.force = some 7)
      ((after .outputFieldStart
        ((base 9).setEngine .me2 { running .auto 11 450 25 bkgd with force := some 7 })).engine .me2) ∧
    (after .outputFieldStart (base 9)).matrix.bypass = none ∧
    (after .outputFieldStart { base 9 with matrix := { Matrix.reset with staged := some (some 3) } }).matrix.bypass =
      some 3 := by
  refine ⟨witness_startsField_free 9, ?_, ?_, ?_, ?_⟩ <;> decide +kernel

theorem witness_MixLiesBetweenItsSamples : (0 ≤ 1024) ∧ (1024 ≤ 1024) := by decide

theorem witness_CurveInterpolatesBetweenPoints :
    (31 ≤ 31 ∧ 1024 ≤ 1024) ∧ ∀ i < 33, curvePoint curve2 i ≤ 1024 := by decide

theorem witness_KeyChainStaysWithinRange :
    (Keyer.reset.settings.type = .luma ∧ 64 ≤ Keyer.reset.settings.clip ∧
      Keyer.reset.settings.clip < 65) ∧
    ({ Keyer.reset.settings with type := .linear } : KeySettings).type = .linear ∧
    (∀ i < 33, curvePoint curve2 i ≤ 1024) ∧
    (((0 : Nat) = 0 ∨ (0 : Nat) = 1024) ∧ ((1024 : Nat) = 0 ∨ (1024 : Nat) = 1024)) ∧
    (completing.engine .me2).state ≠ .idle ∧
    ((3, Direction.on) ∈ (mixRun ⟨true, [(3, .on), (5, .off)], none⟩ 25).elements.keys ∧
      (5, Direction.off) ∈ (mixRun ⟨true, [(3, .on), (5, .off)], none⟩ 25).elements.keys ∧
      ([3, 5] : List Nat).Nodup ∧ 4 ∉ ([3, 5] : List Nat)) ∧
    ((((base 9).setEngine .dsk1
        { Engine.reset ⟨false, false, false, false⟩ with force := some 1024 }).engine .dsk1).force =
          some 1024 ∧
      6 ∈ ((base 9).nextElements .dsk1).keys.map Prod.fst ∧
      0 ∉ ((base 9).nextElements .me1).keys.map Prod.fst) := by decide

theorem witness_WipeFrontAndDistances :
    (4095 ≤ 4095 ∧ 255 ≤ 255 ∧ 1024 ≤ 1024) ∧ (4 * 1023 ≤ 4095 ∧ 4095 < 4 * 1024) ∧
    (1919 < width .progressive1080 ∧ 1079 < activeLines .progressive1080) ∧
    (look resetShapes 3 ⟨.horizontal, 0, 0, 1⟩).kind = .box ∧
    (look resetShapes 4 ⟨.horizontal, 0, 0, 1⟩).kind = .diamond ∧
    ((14 - 10 ≤ 4 ∧ 10 < 14) ∧ (4 < 15 - 10 ∧ 15 - 10 ≤ 4 + 1) ∧ 4 + 1 < 16 - 10) ∧
    ((completing.engine .me2).state ≠ .idle ∧ bkgd.bkgd = true ∧ (mixRun bkgd 25).settings.style = .mix) ∧
    (((base 9).engine .me1).state = .idle ∧ ((base 9).engine .me1).force = none ∧
      ((base 9).engine .me1).sel.bkgd = true) := by decide

theorem witness_BarsAndTestSamples : 1919 < width (base 9).timing.format ∧ (1 ≤ 32767 ∧ 32767 ≤ 32767) := by decide

theorem witness_OutputsCarryTheirPictures :
    State.reset.timing.started = false ∧ (base 9).startsField .outputFieldStart ∧
    ((Instr.select 1 8 4).command? = some (1, .select 8 4) ∧ ∀ f, Command.select 8 4 ≠ .setFormat f) ∧
    (base 9).timing.started = true ∧ (1 ≤ 24 ∧ 24 ≤ 24) ∧
    ((base 9).startField.asShown = (base 9).startField) ∧
    ((((base 9).engine .me1).state = .idle) ∧
      ((completing.engine .me2).run = some (mixRun ⟨true, [(3, .on), (5, .off)], none⟩ 25) ∧
        (completing.engine .me2).state ≠ .idle)) ∧
    ({ Matrix.reset with bypass := some 27 } : Matrix).bypass = some 27 ∧
    ((base 9).matrix.bypass = none ∧ (base 9).ftbFade = 0) ∧
    ({ base 9 with ftb := .blacked } : State).ftbFade = 1024 ∧
    ((base 9).keyFade 6 = 0 ∧ (base 9).keyFade 7 = 0) ∧
    (fun s : State => s.timing.started = true ∧ 1919 < width s.timing.format ∧
      s.packets.flatten[0 * width s.timing.format + 0]? = some 9#10 ∧
      s.packets.flatten.length ≤ 0 * width s.timing.format + 1919)
      { base 9 with packets := [[9#10]] } := by
  refine ⟨rfl, witness_startsField_free 9, ⟨rfl, fun f h => by cases h⟩, rfl, by decide, ?_, by decide, rfl, by decide,
    by decide, by decide, by decide⟩
  exact State.asShown_startField _

/-! ### Witnesses of what every step keeps: states in use, not the reset state -/

/-- Look-ups in a table whose records are all alike. -/
theorem look_replicate {α : Type} (n i : Nat) (x : α) : look (Vector.replicate n x) i x = x := by
  by_cases h : i < n <;> simp [look, h]

theorem identity_points (i : Nat) : look identityCurve i 0 ≤ 1024 := by
  by_cases h : i < 33
  · simp [look, identityCurve, h]; omega
  · simp [look, h]

/-- A state in use: an M/E run, a lever run, a waiting entry, a TIMED lane C and a condition. -/
def inUse : State :=
  { (waitingFor [⟨.select 9 12, 1, 9⟩, ⟨.take 1#5, 2, 12⟩] (listening (base 9))) with
    engines :=
      { Engines.reset with
        me2 := running .auto 11 450 25 bkgd
        me1 := { running .lever 0 300 25 bkgd with lever := ⟨300, .up, false⟩ } }
    reports := { Reports.reset .power with conditions := [⟨.laneSlip, 25, 7, 7, 1, 2⟩] }
    pending := [.outputFieldStart] }

theorem witness_EveryStepKeepsThePendingList :
    inUse.listOrdered ∧ inUse.waiting.holdAgrees ∧ step inUse = .next (stateOf (step inUse)) := by
  refine ⟨?_, ?_, rfl⟩
  · unfold State.listOrdered; decide
  · unfold PendingList.holdAgrees; decide

theorem witness_EveryStepKeepsTheReentryRestriction :
    inUse.entriesAdmissible ∧ inUse.busesKeepReentry ∧ inUse.bypassInRange ∧
      step inUse = .next (stateOf (step inUse)) := by
  have h : ∀ b, inUse.bus b = 0 := fun b => look_replicate 20 b 0
  have h' : ∀ b, look inUse.picture.buses b 0 = 0 := fun b => look_replicate 20 b 0
  refine ⟨?_, ⟨fun b _ => ?_, fun b _ _ => ?_⟩, ?_, rfl⟩
  · unfold State.entriesAdmissible; decide
  · rw [h, h']; omega
  · rw [h, h']; omega
  · unfold State.bypassInRange; decide

theorem witness_EveryStepKeepsTheEngines :
    inUse.entriesAdmissible ∧ inUse.engines.wf ∧ step inUse = .next (stateOf (step inUse)) := by
  refine ⟨?_, ⟨fun e => ?_, fun e he => ?_⟩, rfl⟩
  · unfold State.entriesAdmissible; decide
  · cases e <;> simp [Engine.wf, inUse, Engines.get, running, mixRun, Engine.reset, Engines.reset,
      NextSettings.reset, LeverRecord.reset, LeverRecord.effective, RunRecord.belongsTo, bkgd,
      EngineId.isMe]
  · cases e <;> simp [EngineId.isMe, Engine.downstream, inUse, Engines.get, Engines.reset, Engine.reset,
      NextSettings.reset] at he ⊢

theorem witness_EveryStepKeepsTheLanes :
    inUse.entriesAdmissible ∧ (∀ n, isLane n = true → (inUse.lane n).wf) ∧ inUse.receiverWf ∧
      step inUse = .next (stateOf (step inUse)) := by
  refine ⟨?_, fun n hn => ?_, ?_, rfl⟩
  · unfold State.entriesAdmissible; decide
  · simp only [isLane, Bool.and_eq_true, decide_eq_true_eq] at hn
    obtain ⟨h1, h2⟩ := hn
    unfold Lane.wf
    interval_cases n <;> decide
  · unfold State.receiverWf; decide

theorem witness_EveryStepKeepsReportsAndCounters :
    inUse.reports.wf ∧ inUse.checker.countersInRange ∧ step inUse = .next (stateOf (step inUse)) := by
  refine ⟨?_, ?_, rfl⟩
  · unfold Reports.wf; decide
  · unfold Checker.countersInRange; decide

theorem witness_EveryStepKeepsTablesGeneratorsAndParity :
    inUse.entriesAdmissible ∧ inUse.tables.dirtyAgrees ∧ inUse.tables.pointsInRange ∧
      inUse.generators.wf ∧ inUse.timing.parityAgrees ∧
      step inUse = .next (stateOf (step inUse)) := by
  have h : ∀ n, look (Vector.replicate 8 identityCurve) n identityCurve = identityCurve :=
    fun n => look_replicate 8 n identityCurve
  refine ⟨?_, ⟨fun _ => rfl, fun _ => rfl, fun _ => rfl⟩, fun n i => ?_, ⟨?_, by decide⟩, ?_, rfl⟩
  · unfold State.entriesAdmissible; decide
  · show look (look (Vector.replicate 8 identityCurve) n identityCurve) i 0 ≤ 1024 ∧
      look (look (Vector.replicate 8 identityCurve) n identityCurve) i 0 ≤ 1024
    rw [h]
    exact ⟨identity_points i, identity_points i⟩
  · rintro c (rfl | rfl) <;> decide
  · unfold Timing.parityAgrees; decide

end Sys2Proof.Tests
end

section
/-!
SUPPORT. The wipe (chapter 6): the two coefficients by the region of the excess, the front and its limits,
the coordinates and the distances, the key mask, and the background that a bank shows for what its engine
drives.
-/

namespace Sys2Proof.Machine

open Sys2Proof

/-! ### The coefficients by the region of the excess (R114) -/

section
variable {t r border softness : Nat}

theorem wipeCoefficients_notReached (h : t ≤ r) : wipeCoefficients t r border softness = ⟨0, 0⟩ :=
  if_pos h

theorem wipeCoefficients_soft_plain (h : r < t) (he : t - r ≤ softness) :
    wipeCoefficients t r 0 softness = ⟨(t - r) * 1024 / (softness + 1), 0⟩ := by
  simp [wipeCoefficients, Nat.not_le.mpr h, he]

theorem wipeCoefficients_soft_bordered (h : r < t) (he : t - r ≤ softness) (hb : 0 < border) :
    wipeCoefficients t r border softness = ⟨0, (t - r) * 1024 / (softness + 1)⟩ := by
  simp [wipeCoefficients, Nat.not_le.mpr h, he, Nat.ne_of_gt hb]

theorem wipeCoefficients_border (h : r < t) (hs : softness < t - r) (he : t - r ≤ softness + border) :
    wipeCoefficients t r border softness = ⟨1024, 1024⟩ := by
  simp only [wipeCoefficients, if_neg (Nat.not_le.mpr h), if_neg (Nat.not_le.mpr hs), if_pos he]

theorem wipeCoefficients_passed (h : r < t) (he : softness + border < t - r) :
    wipeCoefficients t r border softness = ⟨1024, 0⟩ := by
  have hs : softness < t - r := by omega
  simp only [wipeCoefficients, if_neg (Nat.not_le.mpr h), if_neg (Nat.not_le.mpr hs),
    if_neg (Nat.not_le.mpr he)]

/-- The ramp of the soft region ends one short of 1024 at the most. -/
theorem softRamp_le {e : Nat} (he : e ≤ softness) : e * 1024 / (softness + 1) ≤ 1023 := by
  have h : e * 1024 < 1024 * (softness + 1) := by omega
  exact Nat.le_of_lt_succ (Nat.div_lt_of_lt_mul (by rwa [Nat.mul_comm (softness + 1)]))

/-- In every region both coefficients lie within 0 to 1024, and there is no border colour without a
border. -/
theorem wipeCoefficients_range (t r border softness : Nat) :
    (wipeCoefficients t r border softness).ab ≤ 1024 ∧
      (wipeCoefficients t r border softness).bd ≤ 1024 ∧
      (border = 0 → (wipeCoefficients t r border softness).bd = 0) := by
  rcases Nat.lt_or_ge r t with h | h
  · rcases Nat.lt_or_ge softness (t - r) with hs | hs
    · rcases Nat.lt_or_ge (softness + border) (t - r) with hb | hb
      · simp [wipeCoefficients_passed h hb]
      · rw [wipeCoefficients_border h hs hb]
        exact ⟨le_rfl, le_rfl, fun h0 => by omega⟩
    · have ramp := softRamp_le hs
      rcases Nat.eq_zero_or_pos border with rfl | hb
      · rw [wipeCoefficients_soft_plain h hs]
        exact ⟨Nat.le_succ_of_le ramp, Nat.zero_le _, fun _ => rfl⟩
      · rw [wipeCoefficients_soft_bordered h hs hb]
        exact ⟨Nat.zero_le _, Nat.le_succ_of_le ramp, fun h0 => absurd h0 (Nat.ne_of_gt hb)⟩
  · simp [wipeCoefficients_notReached h]

end

/-! ### The front and its limits (R113, R117) -/

@[simp] theorem wipeFront_zero (border softness : Nat) : wipeFront 0 border softness = 0 := by
  simp [wipeFront]

/-- At q_d = 1024 the front is past every pixel, its border and its softness with it. -/
@[simp] theorem wipeFront_full (border softness : Nat) :
    wipeFront 1024 border softness = 4096 + border + softness :=
  Nat.mul_div_cancel_left _ (by decide)

/-- Without border and softness the front advances by 4 for each step of q_d. -/
@[simp] theorem wipeFront_plain (shown : Nat) : wipeFront shown 0 0 = 4 * shown := by
  unfold wipeFront; omega

theorem wipeFront_one {border softness : Nat} (hb : border ≤ 255) (hs : softness ≤ 255) :
    wipeFront 1 border softness = 4 := by
  unfold wipeFront; omega

theorem wipeFront_le {shown border softness : Nat} (hd : shown ≤ 1024) (hb : border ≤ 255)
    (hs : softness ≤ 255) : wipeFront shown border softness ≤ 4606 := by
  have h : wipeFront shown border softness ≤ wipeFront 1024 border softness :=
    Nat.div_le_div_right (Nat.mul_le_mul_right _ hd)
  rw [wipeFront_full] at h
  omega

/-- At q_d = 0 no pixel is reached. -/
theorem wipeCoefficients_front_zero (r border softness : Nat) :
    wipeCoefficients (wipeFront 0 border softness) r border softness = ⟨0, 0⟩ :=
  wipeCoefficients_notReached (by simp)

/-- At q_d = 1024 every pixel is passed. -/
theorem wipeCoefficients_front_full {r : Nat} (hr : r ≤ 4095) (border softness : Nat) :
    wipeCoefficients (wipeFront 1024 border softness) r border softness = ⟨1024, 0⟩ := by
  rw [wipeFront_full]
  exact wipeCoefficients_passed (by omega) (by omega)

/-! ### The coordinates and the distances (R108 to R111) -/

/-- A place takes the pixel of its own, or the left one of its pair for chroma. -/
theorem pixelOf_eq_columnOf (place : Nat) : pixelOf place = columnOf place := by
  unfold pixelOf columnOf
  split <;> split <;> omega

theorem frameLine_eq (f : Format) (p : Parity) (line : Nat) :
    frameLine f p line = if f = .interlaced1080 then 2 * line + p.toNat else line := by
  cases f <;> rfl

theorem State.coordinates_eq_uv (s : State) (line place : Nat) :
    s.coordinates line place = s.uv line place := by
  simp only [State.coordinates, State.uv, normalColumn, normalLine, pixelOf_eq_columnOf, frameLine_eq]

theorem columnOf_lt {place w : Nat} (h : place < 2 * w) : columnOf place < w := by
  unfold columnOf
  split <;> omega

/-- Every line of a field is a line of its frame. -/
theorem frameLine_lt {f : Format} {line : Nat} (p : Parity) (h : line < activeLines f) :
    frameLine f p line < height f := by
  have hp := p.toNat_le
  cases f <;> simp [frameLine, Format.interlaced, activeLines, height] at h ⊢ <;> omega

theorem normalised_le {x n : Nat} (h : x < n) : x * 4096 / n ≤ 4095 :=
  Nat.le_of_lt_succ (Nat.div_lt_of_lt_mul (Nat.mul_lt_mul_of_pos_right h (by decide)))

theorem State.uv_le (s : State) {line place : Nat} (hp : place < 2 * width s.timing.format)
    (hl : line < activeLines s.timing.format) :
    (s.uv line place).1 ≤ 4095 ∧ (s.uv line place).2 ≤ 4095 := by
  refine ⟨normalised_le (columnOf_lt hp), ?_⟩
  rw [State.uv, ← frameLine_eq]
  exact normalised_le (frameLine_lt _ hl)

theorem distance_eq_natAbs (x y : Nat) : distance x y = ((x : Int) - (y : Int)).natAbs := by
  unfold distance
  split <;> omega

theorem wipeDistance_le (r : ShapeRecord) {u v : Nat} (hu : u ≤ 4095) (hv : v ≤ 4095) :
    wipeDistance r u v ≤ 4095 := by
  unfold wipeDistance
  cases r.kind with
  | horizontal => exact hu
  | vertical => exact hv
  | diagonal => show (u + v) / 2 ≤ 4095; omega
  | box => exact Nat.min_le_left _ _
  | diamond => exact Nat.min_le_left _ _

theorem reversed_true_add {r : Nat} (h : r ≤ 4095) : reversed true r + r = 4095 :=
  Nat.sub_add_cancel h

/-! ### The key mask (R118) -/

theorem State.mask_of_none (s : State) {k : KeySettings} (h : k.maskShape = none) (u v : Nat) :
    s.mask k u v = 1024 := by
  simp only [State.mask, h]

/-- The mask keeps the points up to its size, or under mask invert the others. -/
theorem State.mask_of_some (s : State) {k : KeySettings} {n : Nat} (h : k.maskShape = some n)
    (u v : Nat) :
    s.mask k u v =
      if (wipeDistance (s.shape n) u v ≤ k.maskSize) ↔ k.maskInvert = false then 1024 else 0 := by
  simp only [State.mask, h]
  by_cases hr : wipeDistance (s.shape n) u v ≤ k.maskSize <;> cases k.maskInvert <;> simp [hr]

/-! ### The background of a bank (R82, R112, R115, R116) -/

/-- Only an M/E engine has a background in its next elements. -/
theorem State.nextElements_bkgd (s : State) (e : EngineId) :
    (s.nextElements e).bkgd = (e.isMe && (s.engine e).sel.bkgd) := by
  cases e <;> rfl

/-- An engine that is not IDLE drives what its run record holds. -/
theorem State.drive_of_running {s : State} {e : EngineId} {r : RunRecord}
    (hs : (s.engine e).state ≠ .idle) (hr : (s.engine e).run = some r) :
    s.drive e =
      some ⟨r.elements, r.settings, r.shape.getD (s.shape r.settings.shape), (s.engine e).shown⟩ := by
  unfold State.drive
  cases hst : (s.engine e).state with
  | idle => exact absurd hst hs
  | _ => simp only [hst, hr]

/-- An IDLE engine drives its next elements where it is forced. -/
theorem State.drive_of_idle {s : State} {e : EngineId} (hs : (s.engine e).state = .idle) :
    s.drive e =
      if (s.engine e).force.isSome then
        some ⟨s.nextElements e, (s.engine e).next, s.shape (s.engine e).next.shape,
          (s.engine e).shown⟩
      else none := by
  simp only [State.drive, hs]

/-- The background that a bank shows for what its engine drives. -/
theorem State.background_of_driven {s : State} {e : EngineId} {d : Drive}
    (h : s.driveBackground e = some d) (a b : Picture) (line place : Nat) :
    s.background e a b line place =
      Sample.mix
        (Sample.mix (a line place) (b line place)
          (d.coefficients (s.uv line place).1 (s.uv line place).2).ab)
        (.of (Colour.at (s.matte d.settings.matte) place))
        (d.coefficients (s.uv line place).1 (s.uv line place).2).bd := by
  simp only [State.background, State.backgroundCoefficients, h, s.coordinates_eq_uv, plainPicture]

/-- A background that is not driven is A whole. -/
theorem State.background_of_not_driven {s : State} {e : EngineId} (h : s.driveBackground e = none)
    (a b : Picture) (line place : Nat) : s.background e a b line place = a line place := by
  simp only [State.background, State.backgroundCoefficients, h, Sample.mix_zero]

/-- The two ways an engine drives a background, by its run or forced in IDLE: what it presents then. -/
theorem State.driveBackground_eq_some {s : State} {e : EngineId} {settings : NextSettings}
    {shape : ShapeRecord}
    (h : (∃ r, (s.engine e).state ≠ .idle ∧ (s.engine e).run = some r ∧ r.elements.bkgd = true ∧
        settings = r.settings ∧ r.shape = some shape) ∨
      ((s.engine e).state = .idle ∧ (s.engine e).force ≠ none ∧ e.isMe = true ∧
        (s.engine e).sel.bkgd = true ∧ settings = (s.engine e).next ∧
        shape = s.shape settings.shape)) :
    ∃ x, s.driveBackground e = some ⟨x, settings, shape, (s.engine e).shown⟩ := by
  rcases h with ⟨r, hs, hr, hb, rfl, hsh⟩ | ⟨hs, hf, hme, hb, rfl, rfl⟩
  · exact ⟨r.elements, by simp [State.driveBackground, State.drive_of_running hs hr, hb, hsh]⟩
  · have hn : (s.nextElements e).bkgd = true := by rw [s.nextElements_bkgd, hme, hb]; rfl
    exact ⟨s.nextElements e, by
      simp [State.driveBackground, State.drive_of_idle hs, Option.isSome_iff_ne_none.mpr hf, hn]⟩

/-- No background is driven where the engine is IDLE and not forced, or drives other elements only. -/
theorem State.driveBackground_eq_none {s : State} {e : EngineId}
    (h : (s.engine e).state = .idle ∧
        ((s.engine e).force = none ∨ (s.nextElements e).bkgd = false) ∨
      (∃ r, (s.engine e).state ≠ .idle ∧ (s.engine e).run = some r ∧ r.elements.bkgd = false)) :
    s.driveBackground e = none := by
  rcases h with ⟨hs, hf | hb⟩ | ⟨r, hs, hr, hb⟩
  · simp [State.driveBackground, State.drive_of_idle hs, hf]
  · simp [State.driveBackground, State.drive_of_idle hs, hb]
  · simp [State.driveBackground, State.drive_of_running hs hr, hb]

/-- Settles O51: the coefficients region by region, the front at its limits, the ranges of the
coordinates and of the distances, the mask, and the background by what its engine drives. -/
theorem wipeFrontAndDistances : Obligations.WipeFrontAndDistances := by
  refine ⟨?coefficients, ?front, ?coordinates, ?distance, ?mask, ?background⟩
  case coefficients =>
    rintro t r border softness e rfl
    exact ⟨wipeCoefficients_notReached,
      fun h he hb => hb ▸ wipeCoefficients_soft_plain h he,
      wipeCoefficients_soft_bordered, fun _ => softRamp_le,
      wipeCoefficients_border, wipeCoefficients_passed, wipeCoefficients_range t r border softness⟩
  case front =>
    intro r border softness shown hr hb hs hd
    refine ⟨rfl, wipeFront_le hd hb hs, wipeCoefficients_front_zero r border softness,
      wipeCoefficients_front_full hr border softness, wipeFront_one hb hs, fun h => ?_, fun h => ?_⟩
    · exact wipeCoefficients_notReached (by rwa [wipeFront_plain])
    · exact wipeCoefficients_passed (by rwa [wipeFront_plain]) (by rw [wipeFront_plain]; omega)
  case coordinates =>
    exact fun s line place hp hl => ⟨s.coordinates_eq_uv line place, s.uv_le hp hl⟩
  case distance =>
    rintro ⟨kind, cu, cv, aspect⟩ u v _ _ hu hv rfl rfl
    have hle := wipeDistance_le ⟨kind, cu, cv, aspect⟩ hu hv
    refine ⟨?_, hle, rfl, reversed_true_add hle⟩
    cases kind <;> simp only [wipeDistance, distance_eq_natAbs]
  case mask =>
    exact fun s k u v => ⟨fun h => s.mask_of_none h u v, fun n h => s.mask_of_some h u v⟩
  case background =>
    intro s e a b line place
    refine ⟨fun settings shape shown hdrive hshown => ?_, fun h =>
      State.background_of_not_driven (State.driveBackground_eq_none h) a b line place⟩
    obtain ⟨x, hx⟩ := State.driveBackground_eq_some hdrive
    subst hshown
    rw [State.background_of_driven hx]
    constructor
    · intro hstyle
      simp only [Drive.coefficients, hstyle, Sample.mix_zero, Engine.shown]
    · rintro hstyle _ rfl
      simp only [Drive.coefficients, hstyle, Engine.shown]

end Sys2Proof.Machine
end

section
/-!
SUPPORT. The keyers (chapter 7): each stage of the key chain and its range, the fade coefficient of a keyer
by what its engine drives, and the keyer's output.
-/

namespace Sys2Proof.Machine

open Sys2Proof

/-! ### Derivation of α_lin (R124, R125) -/

section
variable {k : KeySettings} {luma : Nat}

theorem deriveKey_luma_below (ht : k.type = .luma) (h : luma ≤ k.clip) : deriveKey k luma = 0 := by
  simp only [deriveKey, ht, if_pos h]

theorem deriveKey_luma_above (ht : k.type = .luma) (h : k.clip < luma) :
    deriveKey k luma = min 1024 (((luma - k.clip) * k.gain + 8) / 16) := by
  simp only [deriveKey, ht, if_neg (Nat.not_le.mpr h)]

theorem deriveKey_linear (ht : k.type = .linear) (luma : Nat) :
    deriveKey k luma = ((min (max luma 64) 940 - 64) * 1024 + 438) / 876 := by
  simp only [deriveKey, ht, clamp]

/-- The 876 luma steps from 64 to 940 cover the 1024 key steps: each is one or two of them. -/
theorem deriveKey_linear_succ (ht : k.type = .linear) (h : 64 ≤ luma) (h' : luma < 940) :
    deriveKey k (luma + 1) = deriveKey k luma + 1 ∨ deriveKey k (luma + 1) = deriveKey k luma + 2 := by
  have clamped : ∀ x, 64 ≤ x → x ≤ 940 → min (max x 64) 940 = x := by omega
  rw [deriveKey_linear ht, deriveKey_linear ht, clamped _ h (Nat.le_of_lt h'),
    clamped _ (Nat.le_succ_of_le h) h']
  omega

theorem deriveKey_le (k : KeySettings) (luma : Nat) : deriveKey k luma ≤ 1024 := by
  cases ht : k.type with
  | luma =>
    rcases Nat.lt_or_ge k.clip luma with h | h
    · exact deriveKey_luma_above ht h ▸ Nat.min_le_left _ _
    · exact deriveKey_luma_below ht h ▸ Nat.zero_le _
  | linear => rw [deriveKey_linear ht]; omega

end

/-! ### The curve, invert, mask and fade stages (R126 to R128, R130) -/

/-- A bound of both end points bounds the point that lies `f` of 32 steps from `p` to `q`. -/
theorem interpolated_le {p q f b : Int} (hp : p ≤ b) (hq : q ≤ b) (h0 : 0 ≤ f) (h32 : f ≤ 32) :
    p + ((q - p) * f + 16) / 32 ≤ b := by
  have h : (q - p) * f ≤ (b - p) * 32 :=
    calc (q - p) * f ≤ (b - p) * f := Int.mul_le_mul_of_nonneg_right (by omega) h0
      _ ≤ (b - p) * 32 := Int.mul_le_mul_of_nonneg_left h32 (by omega)
  omega

/-- The curve stage goes no higher than the points of its curve. -/
theorem curveKey_le {c : Curve} {a b : Nat} (hc : ∀ i, i ≤ 32 → curvePoint c i ≤ b) (ha : a ≤ 1024) :
    curveKey c a ≤ b := by
  rcases Nat.eq_or_lt_of_le ha with rfl | ha
  · exact hc 32 le_rfl
  · rw [curveKey, if_neg (Nat.ne_of_lt ha), Int.toNat_le]
    exact interpolated_le (Int.ofNat_le.mpr (hc _ (by omega))) (Int.ofNat_le.mpr (hc _ (by omega)))
      (by omega) (by omega)

theorem invertKey_le (b : Bool) {a : Nat} (ha : a ≤ 1024) : invertKey b a ≤ 1024 := by
  cases b with
  | false => exact ha
  | true => exact Nat.sub_le 1024 a

@[simp] theorem scaleKey_zero (a : Nat) : scaleKey a 0 = 0 := by simp [scaleKey]

@[simp] theorem scaleKey_full (a : Nat) : scaleKey a 1024 = a := by unfold scaleKey; omega

/-- A coefficient within 0 to 1024 scales down, rounding included. -/
theorem scaleKey_le (a : Nat) {m : Nat} (hm : m ≤ 1024) : scaleKey a m ≤ a := by
  have h : a * m ≤ a * 1024 := Nat.mul_le_mul_left a hm
  unfold scaleKey
  omega

/-- The mask stage keeps α_i whole or drops it: the mask coefficient has no value between (R118). -/
theorem scaleKey_mask (a : Nat) {m : Nat} (hm : m = 0 ∨ m = 1024) :
    scaleKey a m = if m = 0 then 0 else a := by
  rcases hm with rfl | rfl
  · rw [scaleKey_zero, if_pos rfl]
  · rw [scaleKey_full, if_neg (by decide)]

/-- α_m where the points of the curve are in range (R44). -/
theorem maskedKey_le (k : KeySettings) {c : Curve} (luma m : Nat)
    (hc : ∀ i, i ≤ 32 → curvePoint c i ≤ 1024) :
    (if m = 0 then 0 else invertKey k.invert (curveKey c (deriveKey k luma))) ≤ 1024 := by
  split
  · exact Nat.zero_le _
  · exact invertKey_le _ (curveKey_le hc (deriveKey_le k luma))

/-! ### The fade coefficient (R129) -/

/-- The direction of a key that stands among the elements, where no key stands twice (R78). -/
theorem Elements.direction_of_mem {x : Elements} {n : Nat} {dir : Direction}
    (hd : (x.keys.map Prod.fst).Nodup) (h : (n, dir) ∈ x.keys) : x.direction n = some dir := by
  obtain ⟨key, hkey⟩ : ∃ key, x.keys.find? (fun key => key.1 == n) = some key :=
    Option.isSome_iff_exists.mp (List.find?_isSome.mpr ⟨_, h, beq_self_eq_true n⟩)
  have hn : key.1 = n := by simpa using List.find?_some hkey
  have same : key = (n, dir) :=
    List.inj_on_of_nodup_map hd (List.mem_of_find?_eq_some hkey) h hn
  rw [Elements.direction, hkey, same, Option.map_some]

theorem Elements.direction_of_not_mem {x : Elements} {n : Nat} (h : n ∉ x.keys.map Prod.fst) :
    x.direction n = none := by
  rw [Elements.direction, Option.map_eq_none_iff, List.find?_eq_none]
  exact fun key hkey hn => h (List.mem_map.mpr ⟨key, hkey, beq_iff_eq.mp hn⟩)

/-- A keyer that its engine drives follows q_d up or down by its direction. -/
theorem State.keyFade_of_driven {s : State} {n : Nat} {d : Drive} {dir : Direction}
    (h : s.drive (keyerEngine n) = some d) (hd : (d.elements.keys.map Prod.fst).Nodup)
    (hn : (n, dir) ∈ d.elements.keys) :
    s.keyFade n = if dir = .on then d.shown else 1024 - d.shown := by
  simp only [State.keyFade, h, Elements.direction_of_mem hd hn]
  cases dir <;> rfl

/-- A keyer whose engine drives nothing shows its on-air flag. -/
theorem State.keyFade_of_no_drive {s : State} {n : Nat} (h : s.drive (keyerEngine n) = none) :
    s.keyFade n = s.idleFade n := by
  simp only [State.keyFade, h]

/-- A keyer that is not among what its engine drives shows its on-air flag. -/
theorem State.keyFade_of_not_driven {s : State} {n : Nat} {d : Drive}
    (h : s.drive (keyerEngine n) = some d) (hn : n ∉ d.elements.keys.map Prod.fst) :
    s.keyFade n = s.idleFade n := by
  simp only [State.keyFade, h, Elements.direction_of_not_mem hn]

/-- Every key among the next elements has the direction of this moment (R78). -/
theorem State.nextElements_keys (s : State) (e : EngineId) :
    ∃ numbers : List Nat, (s.nextElements e).keys = numbers.map fun n => (n, s.keyDirection n) := by
  cases e with
  | me1 | me2 => exact ⟨_, rfl⟩
  | dsk1 | dsk2 => exact ⟨[_], rfl⟩
  | ftb => exact ⟨[], rfl⟩

theorem State.mem_nextElements_keys {s : State} {e : EngineId} {n : Nat}
    (h : n ∈ (s.nextElements e).keys.map Prod.fst) :
    (n, s.keyDirection n) ∈ (s.nextElements e).keys := by
  obtain ⟨numbers, hkeys⟩ := s.nextElements_keys e
  simpa [hkeys] using h

/-- A forced IDLE engine shows a key of its next elements at the force value, toward the other on-air
flag (R82, R129). -/
theorem State.keyFade_of_forced {s : State} {n value : Nat}
    (h : s.drive (keyerEngine n) =
      some ⟨s.nextElements (keyerEngine n), (s.engine (keyerEngine n)).next,
        s.shape (s.engine (keyerEngine n)).next.shape, value⟩)
    (hn : n ∈ (s.nextElements (keyerEngine n)).keys.map Prod.fst) :
    s.keyFade n = if (s.keyer n).onAir then 1024 - value else value := by
  rw [State.keyFade_of_driven h (s.nextElements_nodup _) (State.mem_nextElements_keys hn),
    State.keyDirection]
  cases (s.keyer n).onAir <;> rfl

/-! ### The keyer's output (R131) -/

/-- The luma place of a pixel is the second of the two places of its column. -/
theorem lumaPlace_eq (place : Nat) : lumaPlace place = 2 * columnOf place + 1 := by
  unfold lumaPlace columnOf
  split <;> split <;> omega

theorem State.keyOver_eq (s : State) (n kf : Nat) (fill keySource under : Picture) (line place : Nat) :
    s.keyOver n kf fill keySource under line place =
      Sample.mix (under line place) (fill line place)
        (keyChain (s.keyer n).settings (s.curve (s.keyer n).settings.curve)
          (keySource line (2 * columnOf place + 1)).value
          (s.mask (s.keyer n).settings (s.uv line place).1 (s.uv line place).2) kf) := by
  simp only [State.keyOver, s.coordinates_eq_uv, lumaPlace_eq]

/-- Settles O50: the stages of the key chain and their ranges, the fade coefficient by what the keyer's
engine drives, and the keyer's output as a mix at α_on. -/
theorem keyChainStaysWithinRange : Obligations.KeyChainStaysWithinRange := by
  refine ⟨?luma, ?linear, deriveKey_le, fun b _ => ⟨rfl, invertKey_le b⟩, ?chain, ?fade, ?output⟩
  case luma => exact fun k luma ht => ⟨deriveKey_luma_below ht, deriveKey_luma_above ht⟩
  case linear => exact fun k luma ht => ⟨deriveKey_linear ht luma, deriveKey_linear_succ ht⟩
  case chain =>
    rintro k c luma m kf am hc hm hkf rfl
    simp only [keyChain, scaleKey_mask _ hm]
    exact ⟨maskedKey_le k luma m hc, rfl, scaleKey_le _ hkf, scaleKey_full _, scaleKey_zero _⟩
  case fade =>
    rintro s n e idle - he rfl
    obtain rfl : e = keyerEngine n := he
    refine ⟨?running, fun hs => ⟨fun hf => ?unforced, fun value hf => ?forced⟩⟩
    case running =>
      rintro r shown hs hr hd rfl
      have drive := State.drive_of_running hs hr
      exact ⟨State.keyFade_of_driven drive hd, State.keyFade_of_driven drive hd,
        State.keyFade_of_not_driven drive⟩
    case unforced => exact State.keyFade_of_no_drive (by simp [State.drive_of_idle hs, hf])
    case forced =>
      have drive := State.drive_of_idle hs
      simp only [Engine.shown, hf, Option.isSome_some, if_true, Option.getD_some] at drive
      exact ⟨State.keyFade_of_not_driven drive, State.keyFade_of_forced drive⟩
  case output =>
    rintro s n kf line place a k fill keySource under rfl rfl
    rw [s.keyOver_eq]
    exact ⟨Sample.mix_value _ _ _, fun h => by rw [h, Sample.mix_zero],
      fun h => by rw [h, Sample.mix_full]⟩

end Sys2Proof.Machine
end

section
/-!
SUPPORT. The bars and the TEST sequence (chapter 9): the bar that a place lies in and its colour, the step of
the TEST register and its range, and the samples that legalise leaves as they are.
-/

namespace Sys2Proof.Machine

open Sys2Proof

/-! ### The bars (R162) -/

/-- Pixels in a bar. -/
def barWidth (f : Format) : Nat := if f = .uhd2160 then 480 else 240

theorem width_eq_eight_bars (f : Format) : width f = barWidth f * 8 := by
  cases f <;> rfl

/-- A bar holds whole pixel pairs. -/
theorem two_dvd_barWidth (f : Format) : 2 ∣ barWidth f := by
  cases f <;> decide

theorem bar_eq_div_barWidth (f : Format) (x : Nat) : x * 8 / width f = x / barWidth f := by
  rw [width_eq_eight_bars, Nat.mul_div_mul_right _ _ (by decide)]

/-- Both pixels of a pair lie in the same bar. -/
theorem bar_of_pair (f : Format) (x : Nat) : 2 * (x / 2) * 8 / width f = x * 8 / width f := by
  obtain ⟨pairs, hpairs⟩ := two_dvd_barWidth f
  rw [bar_eq_div_barWidth, bar_eq_div_barWidth, hpairs, Nat.mul_div_mul_left _ _ (by decide),
    Nat.div_div_eq_div_mul]

theorem columnOf_luma (x : Nat) : columnOf (2 * x + 1) = x := by
  rw [columnOf, if_pos (by omega)]
  omega

theorem columnOf_cb (pair : Nat) : columnOf (4 * pair) = 2 * pair := by
  rw [columnOf, if_neg (by omega)]
  omega

theorem columnOf_cr (pair : Nat) : columnOf (4 * pair + 2) = 2 * pair := by
  rw [columnOf, if_neg (by omega)]
  omega

theorem Colour.at_luma (c : Colour) (x : Nat) : Colour.at c (2 * x + 1) = c.y := by
  rw [Colour.at, if_neg (by omega), if_neg (by omega)]

theorem Colour.at_cb (c : Colour) (pair : Nat) : Colour.at c (4 * pair) = c.cb :=
  if_pos (by omega)

theorem Colour.at_cr (c : Colour) (pair : Nat) : Colour.at c (4 * pair + 2) = c.cr := by
  rw [Colour.at, if_neg (by omega), if_pos (by omega)]

theorem barsSample_luma (f : Format) (x : Nat) :
    barsSample f (2 * x + 1) = (barColour (x * 8 / width f)).y := by
  rw [barsSample, Colour.at_luma, pixelOf_eq_columnOf, columnOf_luma]

theorem barsSample_cb (f : Format) (x : Nat) :
    barsSample f (4 * (x / 2)) = (barColour (x * 8 / width f)).cb := by
  rw [barsSample, Colour.at_cb, pixelOf_eq_columnOf, columnOf_cb, bar_of_pair]

theorem barsSample_cr (f : Format) (x : Nat) :
    barsSample f (4 * (x / 2) + 2) = (barColour (x * 8 / width f)).cr := by
  rw [barsSample, Colour.at_cr, pixelOf_eq_columnOf, columnOf_cr, bar_of_pair]

/-! ### The TEST sequence (R163, R164) -/

/-- The doubled value loses what would be place 15. -/
theorem testStep_eq {r : Nat} (h : r ≤ 32767) :
    testStep r = 2 * r % 32768 + if r.testBit 14 = r.testBit 13 then 0 else 1 := by
  have doubled : (if 32768 ≤ 2 * r then 2 * r - 32768 else 2 * r) = 2 * r % 32768 := by
    split <;> omega
  have places : (r.testBit 14 = r.testBit 13) = (r / 16384 % 2 = r / 8192 % 2) := by
    simp only [Nat.testBit_eq_decide_div_mod_eq, decide_eq_decide, Nat.reducePow, eq_iff_iff]
    omega
  simp only [testStep, doubled, places]

/-- A step makes no 0: only 16384 loses its one set place, and there places 14 and 13 differ. -/
theorem testStep_range {r : Nat} (h1 : 1 ≤ r) (h2 : r ≤ 32767) :
    1 ≤ testStep r ∧ testStep r ≤ 32767 := by
  unfold testStep
  split <;> split <;> omega

theorem testSample_range (f : Format) (line place : Nat) :
    64 ≤ testSample f line place ∧ testSample f line place ≤ 575 := by
  unfold testSample testValue
  omega

/-! ### What legalise leaves (R162, R164) -/

theorem clamp_of_within {x a b : Nat} (h : a ≤ x) (h' : x ≤ b) : clamp x a b = x := by
  rw [clamp, max_eq_left h, min_eq_left h']

/-- A sample that is legal as luma is legal at every place. -/
theorem legalise_of_luma (place : Nat) {x : Nat} (h : 64 ≤ x) (h' : x ≤ 940) :
    legalise place x = x := by
  unfold legalise
  split
  · exact clamp_of_within h h'
  · exact clamp_of_within h (by omega)

/-- Every component of the BARS table is legal as luma. -/
theorem barColour_legal (b : Nat) :
    (64 ≤ (barColour b).y ∧ (barColour b).y ≤ 940) ∧
      (64 ≤ (barColour b).cb ∧ (barColour b).cb ≤ 940) ∧
      (64 ≤ (barColour b).cr ∧ (barColour b).cr ≤ 940) := by
  unfold barColour
  split <;> decide

theorem legalise_barsSample (f : Format) (place : Nat) :
    legalise place (barsSample f place) = barsSample f place := by
  obtain ⟨⟨y1, y2⟩, ⟨b1, b2⟩, ⟨r1, r2⟩⟩ := barColour_legal (pixelOf place * 8 / width f)
  unfold barsSample Colour.at
  split
  · exact legalise_of_luma place b1 b2
  · split
    · exact legalise_of_luma place r1 r2
    · exact legalise_of_luma place y1 y2

/-! ### The pictures of sources 27 and 28 -/

theorem State.rawPicture_bars (s : State) (me1 me2 : Picture) (line place : Nat) :
    s.rawPicture me1 me2 27 line place = .of (barsSample s.timing.format place) := rfl

theorem State.rawPicture_test (s : State) (me1 me2 : Picture) (line place : Nat) :
    s.rawPicture me1 me2 28 line place = .of (testSample s.timing.format line place) := rfl

/-- Settles O52: the bars by the bar that a place lies in, the TEST register by its step, and both pictures
as legalise leaves them. -/
theorem barsAndTestSamples : Obligations.BarsAndTestSamples := by
  refine ⟨rfl, ?bars, ⟨rfl, fun _ => rfl⟩, ?step, ?samples, by decide⟩
  case bars =>
    rintro s me1 me2 line x _ _ rfl - rfl
    refine ⟨bar_eq_div_barWidth _ x, ?_, ?_, ?_⟩
    · rw [State.rawPicture_bars, barsSample_luma]
    · rw [State.rawPicture_bars, barsSample_cb]
    · rw [State.rawPicture_bars, barsSample_cr]
  case step =>
    intro r h1 h2
    obtain ⟨lower, upper⟩ := testStep_range h1 h2
    exact ⟨lower, upper, testStep_eq h2⟩
  case samples =>
    intro s me1 me2 line place
    obtain ⟨lower, upper⟩ := testSample_range s.timing.format line place
    exact ⟨_, _, s.rawPicture_test me1 me2 line place, s.rawPicture_bars me1 me2 line place, rfl,
      lower, upper, legalise_of_luma place lower (upper.trans (by decide)),
      fun _ => legalise_barsSample _ place⟩

end Sys2Proof.Machine
end

section
/-!
SUPPORT. The induction over a step, said once: the primitive writes that the rows of the table are made of.
What each primitive write keeps, every row keeps; the invariants of the part are instances.
-/

namespace Sys2Proof

/-- A command that acts at its arrival carries nothing that R28 clamps (2.4). -/
theorem Command.clamp_of_atArrival (c : Command) (h : c.atArrival = true) : c.clamp = c := by
  cases c <;> first | rfl | cases h

end Sys2Proof

namespace Sys2Proof.Machine

open Sys2Proof

/-- The Timing Unit runs from `t` to `t'` with no output field start: number, format and parities stay (R1). -/
def Timing.runsTo (t t' : Timing) : Prop :=
  t'.counter = t.counter ∧ t'.format = t.format ∧ t'.parity = t.parity ∧
    t'.nextParity = t.nextParity ∧ t'.started = t.started

/-- The Timing Unit as an output field start may find it: the aligned one may have taken another next parity
in the interlaced format (R5). -/
def Timing.alignsTo (t t' : Timing) : Prop :=
  t'.counter = t.counter ∧ t'.format = t.format ∧
    (t.format.interlaced = false → t'.nextParity = t.nextParity)

theorem Timing.alignsTo_refl (t : Timing) : t.alignsTo t := ⟨rfl, rfl, fun _ => rfl⟩

/-- The Command Receiver of a state may become `r`: the counts stay in range, and a packet comes into
reception only while lane C takes packets (R23, R24). -/
def State.mayReceive (s : State) (r : Receiver) : Prop :=
  (s.receiver.taken ≤ 16 → r.taken ≤ 16) ∧ (s.receiver.dropped ≤ 255 → r.dropped ≤ 255) ∧
    (s.takesPackets = true ∨ r.inReception = none ∨ r.inReception = s.receiver.inReception)

/-- The Pending List with an entry inserted, read forward from `n`, and its hold flag after it (R33, R34). -/
def PendingList.inserted (w : PendingList) (n : FieldNo) (e : Entry) : PendingList :=
  ⟨insertEntry n e w.entries, w.hold || decide (48 ≤ w.entries.length + 1)⟩

/-- A property of states that each primitive write of a row keeps, while what it writes is well formed. -/
structure KeptWrites (P : State → Prop) : Prop where
  reset : ∀ s cause, P s → P (s.resetPart cause)
  timing : ∀ (s : State) t, P s → s.timing.runsTo t → P { s with timing := t }
  reports : ∀ (s : State) r, P s → (s.reports.wf → r.wf) → P { s with reports := r }
  checker : ∀ (s : State) c, P s → (s.checker.countersInRange → c.countersInRange) →
    P { s with checker := c }
  packets : ∀ (s : State) ps, P s → P { s with packets := ps }
  receiver : ∀ (s : State) r, P s → s.mayReceive r → P { s with receiver := r }
  lane : ∀ (s : State) n l, P s → isLane n = true → ((s.lane n).wf → l.wf) → P (s.setLane n l)
  decide : ∀ s : State, P s → P s.decideLanes
  insert : ∀ (s : State) e, P s → e.command.admissible = true → e.command.atArrival = false →
    s.waiting.entries.length < 64 → ahead s.timing.counter e.due ≤ 32767 →
    P { s with waiting := s.waiting.inserted s.timing.counter e }
  deliver : ∀ (s : State) tag c, P s → c.admissible = true → P (s.deliver tag c)

/-- A property of states that each primitive write of a row keeps, and each output field start. -/
structure Kept (P : State → Prop) : Prop extends KeptWrites P where
  startField : ∀ (s : State) t, P s → s.timing.alignsTo t → P { s with timing := t }.startField

/-- A property of states that each primitive write keeps, and each part of an output field start. -/
structure KeptParts (P : State → Prop) : Prop extends KeptWrites P where
  begin : ∀ (s : State) t, P s → s.timing.alignsTo t → P { s with timing := t }.beginField
  bypass : ∀ s : State, P s → P s.applyBypass
  release : ∀ (s : State) e rest, P s → s.waiting.entries = e :: rest →
    P ({ s with waiting := s.waiting.removeHead }.deliver e.tag e.command)
  auto : ∀ (s : State) e, P s → P (s.stepEngine e)
  exchange : ∀ s : State, P s → P s.exchange
  picture : ∀ s : State, P s → P s.takePicture
  tally : ∀ s : State, P s → P s.formTally
  status : ∀ s : State, P s → P s.takeStatus

/-! ### What is written is well formed -/

/-- A posting keeps the lists of the Report Builder within their capacities, with no two entries of one kind
and subject (R177). -/
theorem Reports.wf.post {r : Reports} (h : r.wf) (k : ConditionKind) (n : Nat) (d : Int) (f : FieldNo) :
    (r.post k n d f).wf := by
  obtain ⟨notices, overflow, length, distinct, counts⟩ := h
  obtain ⟨-, e⟩ | ⟨hnone, hroom, e⟩ | ⟨-, -, e⟩ := r.post_cases k n d f <;> rw [e]
  · refine ⟨notices, overflow, by simpa using length, ?_, fun c hc => ?_⟩
    · refine List.pairwise_map.2 (distinct.imp fun {a b} hab => ?_)
      split <;> split <;> exact hab
    · obtain ⟨c', hc', rfl⟩ := List.mem_map.1 hc
      have := counts c' hc'
      split
      · exact ⟨by simp only; omega, by simp only; omega⟩
      · exact this
  · refine ⟨notices, overflow, by simp; omega, ?_, fun c hc => ?_⟩
    · refine List.pairwise_append.2 ⟨distinct, List.pairwise_singleton _ _, fun a ha b hb => ?_⟩
      rw [List.mem_singleton.1 hb]
      have := List.any_eq_false.1 hnone a ha
      simpa [Condition.isFor] using this
    · rcases List.mem_append.1 hc with hc | hc
      · exact counts c hc
      · rw [List.mem_singleton.1 hc]; exact ⟨le_rfl, by simp⟩
  · exact ⟨notices, overflow, length, distinct, counts⟩

/-- A notice keeps the lists of the Report Builder within their capacities (R176). -/
theorem Reports.wf.notice {r : Reports} (h : r.wf) (x : Notice) (f : FieldNo) : (r.notice x f).wf := by
  obtain ⟨notices, overflow, rest⟩ := h
  obtain ⟨hroom, e⟩ | ⟨-, -, e⟩ | ⟨-, -, e⟩ := r.notice_cases x f <;> rw [e]
  · exact ⟨by simp; omega, overflow, rest⟩
  · exact Reports.wf.post (r := { r with overflow := 1 }) ⟨notices, by simp, rest⟩ _ _ _ _
  · exact ⟨notices, by simp only; omega, rest⟩

theorem addCounter_le (m : CheckMode) (c n : Nat) (b : Bool) : (addCounter m c n b).1 ≤ 65535 := by
  cases m <;> simp only [addCounter] <;> omega

/-- Counting a field keeps the counters within 16 bits (R168). -/
theorem Checker.count_inRange {c : Checker} (h : c.countersInRange) (samples m : Nat) :
    (c.count samples m).countersInRange := by
  refine ⟨addCounter_le _ _ _ _, addCounter_le _ _ _ _, ?_⟩
  simp only [Checker.count]
  split
  · exact addCounter_le _ _ _ _
  · exact h.2.2

section
variable {l : Lane}

theorem Lane.wf.decide (h : l.wf) : l.decide.wf := h

/-- What a lane field start writes beside its judgement is in range where the judged record is (R16, R18). -/
theorem Lane.wf.opened (h : l.wf) (m : LaneMatch) (b : Bool) (p : Parity) : (l.opened m b p).wf := by
  obtain ⟨e1, e2, -, e4, e5, e6, -, e8, e9, e10, e11, -⟩ := l.opened_fields m b p
  obtain ⟨h1, h2, h3, h4, h5, h6, -, -, -, h10, h11⟩ := h
  simp only [Lane.wf, e1, e2, e4, e5, e6, e8, e9, e10, e11]
  exact ⟨h1, h2, h3, h4, h5, h6, h5, h6, Nat.zero_le _, h10, h11⟩

/-- The lane record with another match count, of 0 or 1, and other fields that no bound names. -/
theorem Lane.wf.enterTimed (h : l.wf) {d : Int} (hd : d.natAbs ≤ l.settings.window) :
    (l.enterTimed d).lane.wf := by
  obtain ⟨h1, h2, h3, h4, h5, h6, h7, h8, h9, h10, h11⟩ := h
  have hd16 : d.natAbs ≤ 16 := hd.trans h4
  refine ⟨hd16, ?_, fun _ _ => ?_, h4, h5, h6, h7, h8, h9, Nat.zero_le _, h11⟩
  · show (16 - d).toNat ≤ 32
    omega
  · show ((16 - d).toNat : Int) = 16 - d
    omega

theorem Lane.wf.applySlip (h : l.wf) : l.applySlip.wf := by
  obtain ⟨h1, h2, h3, h4⟩ := h
  simp only [Lane.applySlip]
  split
  · refine ⟨h1, ?_, fun _ _ => ?_, h4⟩
    · show (16 - l.lateness).toNat ≤ 32
      omega
    · show ((16 - l.lateness).toNat : Int) = 16 - l.lateness
      omega
  · exact ⟨h1, h2, h3, h4⟩

/-- A lane record that leaves TIMED, or was not in it, keeps its ranges: the match count is 0 or 1. -/
theorem Lane.wf.untimed (h : l.wf) (x : LaneState) (hx : x ≠ .timed) (c : Int) {n : Nat} (hn : n ≤ 1)
    (b : Bool) :
    ({ l with state := x, candidate := c, matchCount := n, mismatch := b } : Lane).wf := by
  obtain ⟨h1, h2, h3, h4, h5, h6, h7, h8, h9, h10, h11⟩ := h
  exact ⟨h1, h2, fun h => absurd h hx, h4, h5, h6, h7, h8, h9, hn, h11⟩

theorem Lane.wf.judgeOpening (h : l.wf) : l.judgeOpening.lane.wf :=
  h.untimed .seek (by decide) l.candidate (Nat.zero_le _) false

theorem Lane.wf.wrongLength (h : l.wf) (hs : l.state ≠ .timed) (f : Format) : (l.wrongLength f).lane.wf :=
  h.untimed l.state hs l.candidate (Nat.zero_le _) true

theorem Lane.wf.qualifyFirst (h : l.wf) (hs : l.state ≠ .timed) (d : Int) : (l.qualifyFirst d).lane.wf :=
  h.untimed l.state hs d le_rfl false

theorem Lane.wf.enterUntimed (h : l.wf) (d : Int) : (l.enterUntimed d).lane.wf :=
  h.untimed .untimed (by decide) l.candidate (Nat.zero_le _) l.mismatch

theorem Lane.wf.judgeSeek (h : l.wf) (hs : l.state = .seek) (f : Format) (d : Int) :
    (l.judgeSeek f d).lane.wf := by
  have hn : l.state ≠ .timed := by rw [hs]; decide
  unfold Lane.judgeSeek
  split
  · exact h.wrongLength hn f
  split
  · exact h.qualifyFirst hn d
  split
  · exact h.enterTimed ‹_›
  · exact h.enterUntimed d

theorem Lane.wf.judgeUntimed (h : l.wf) (hs : l.state = .untimed) (f : Format) (d : Int) :
    (l.judgeUntimed f d).lane.wf := by
  have hn : l.state ≠ .timed := by rw [hs]; decide
  unfold Lane.judgeUntimed
  split
  · exact h.wrongLength hn f
  split
  · exact h.untimed l.state hn l.candidate (Nat.zero_le _) false
  split
  · exact h.qualifyFirst hn d
  · exact h.enterTimed (not_not.1 ‹_›)

theorem Lane.wf.judgeTimedRows (h : l.wf) (f : Format) (d : Int) (again : Bool) :
    (l.judgeTimedRows f d again).lane.wf := by
  unfold Lane.judgeTimedRows
  split
  · exact h.enterUntimed d
  rename_i hd
  split
  · exact h.untimed .seek (by decide) l.candidate (Nat.zero_le _) l.mismatch
  split
  · exact h
  · obtain ⟨h1, h2, h3, h4, rest⟩ := h
    exact ⟨(not_not.1 hd).trans h4, h2, fun _ h => absurd h (by simp), h4, rest⟩

/-- Every judgement of a lane field start keeps the lane record in its ranges (R12 to R15). -/
theorem Lane.wf.judge (h : l.wf) (f : Format) (d : Int) (again : Bool) : (l.judge f d again).lane.wf := by
  unfold Lane.judge
  split
  · exact h.judgeOpening
  · split
    · exact h.judgeOpening
    · exact h.judgeSeek ‹_› f d
  · exact h.applySlip.judgeTimedRows f d again
  · exact h.judgeUntimed ‹_› f d

/-- A lane field start keeps the lane record in its ranges (R9 to R16). -/
theorem Lane.wf.afterStart (h : l.wf) (t : Timing) (elapsed : Nat) : (l.afterStart t elapsed).lane.wf := by
  simp only [Lane.afterStart]
  split
  · exact (h.judge _ _ _).opened _ _ _
  · exact ((h.judge _ _ _).opened _ _ _).decide

/-- A lane record in SEEK or DOWN with the counts that brought it there (R12, R16). -/
theorem Lane.wf.leaves (h : l.wf) (x : LaneState) (hx : x ≠ .timed) {bad missed : Nat}
    (hb : bad ≤ l.limitInForce) (hm : missed ≤ 1) (slip mismatch : Bool) :
    ({ l with
        state := x, matchCount := 0, slip := slip, mismatch := mismatch, bad := bad, missed := missed } :
      Lane).wf := by
  obtain ⟨h1, h2, h3, h4, h5, h6, h7, h8, h9, h10, h11⟩ := h
  exact ⟨h1, h2, fun h => absurd h hx, h4, h5, h6, h7, h8, hb, Nat.zero_le _, hm⟩

/-- The watch and the turn of the field leave what is bounded but for missed fields (R12). -/
theorem Lane.wf.watchedTurn (h : l.wf) (p : Parity) {m : Nat} (hm : m ≤ 1) :
    ({ l.watched.turnField p with missed := m } : Lane).wf := by
  obtain ⟨h1, h2, h3, h4, h5, h6, h7, h8, h9, h10, -⟩ := h
  have e : ∃ k, l.watched = { l with missed := k } := by
    unfold Lane.watched
    split
    · exact ⟨_, rfl⟩
    · split <;> exact ⟨_, rfl⟩
  obtain ⟨k, e⟩ := e
  rw [e]
  exact ⟨h1, h2, h3, h4, h5, h6, h7, h8, h9, h10, hm⟩

/-- A lane in DOWN after the watch (R12). -/
theorem Lane.wf.watchedDown (h : l.wf) (p : Parity) : (l.watched.turnField p).goDown.wf :=
  (h.watchedTurn p (Nat.zero_le 1)).leaves .down (by decide) (Nat.zero_le _) (Nat.zero_le _) false false

/-- A lane that the watch does not bring to DOWN has missed at most one field (R12). -/
theorem Lane.wf.watchedUp (h : l.wf) (p : Parity) (hm : ¬(l.watched.state ≠ .down ∧ 2 ≤ l.watched.missed)) :
    (l.watched.turnField p).wf := by
  refine h.watchedTurn p ?_
  obtain ⟨-, -, -, -, -, -, -, -, -, -, h11⟩ := h
  by_cases hd : l.state = .down
  · simpa [Lane.watched, hd, Lane.turnField] using h11
  · have hs : l.watched.state ≠ .down := by
      unfold Lane.watched
      split <;> [exact hd; (split <;> exact hd)]
    exact Nat.le_of_lt_succ (Nat.lt_of_not_le fun h => hm ⟨hs, h⟩)

theorem Lane.store_bounded_fields (l : Lane) (f : Format) (x : Line) :
    ∃ a b, l.store f x = { l with pictureCurrent := a, pictureNext := b } := by
  simp only [Lane.store]
  split
  · split
    · exact ⟨_, _, rfl⟩
    · exact ⟨_, _, rfl⟩
    · exact ⟨_, _, rfl⟩
  · exact ⟨_, _, rfl⟩

end

/-- A lane record written twice, the second time in a state that takes no packets (R24). -/
theorem State.setLane_setLane_down (s : State) (n : Nat) (l l' : Lane) (h : l'.state.takesPackets = false) :
    (s.setLane n l).setLane n l' = s.setLane n l' := by
  have hp : put (put s.lanes (n - 1) l) (n - 1) l' = put s.lanes (n - 1) l' :=
    ext_look Lane.reset fun i hi => by
      simp only [look_put]
      split <;> simp_all
  simp only [State.setLane, hp, h]
  by_cases hn : n = laneC <;> simp only [hn, true_and, false_and, if_true, if_false]
  split <;> rfl

/-- The rows that are panel commands are taken as commands at once (log 3). -/
theorem exec_of_command {i : Instr} {tag : Tag} {c : Command} (h : i.command? = some (tag, c)) (s : State) :
    exec i s = .next (s.command tag c) := by
  cases i <;> cases h <;> rfl

/-! ### The output field start -/

namespace KeptWrites

variable {P : State → Prop} (K : KeptWrites P)
include K

theorem condition {s : State} (h : P s) (k : ConditionKind) (n : Nat) (d : Int) :
    P (s.postCondition k n d) :=
  K.reports s _ h fun w => w.post _ _ _ _

/-- One lane's part of an output field start: the watch and the turn of the field (R12). -/
theorem watchLane {s : State} (h : P s) {n : Nat} (hn : isLane n = true) : P (s.watchLane n) := by
  simp only [State.watchLane]
  split
  · rw [State.laneToDown, State.lane_setLane_same _ hn, State.setLane_setLane_down _ _ _ _ rfl]
    exact K.condition (K.lane s n _ h hn fun w => Lane.wf.watchedDown w _) _ _ _
  · exact K.lane s n _ h hn fun w => Lane.wf.watchedUp w _ ‹_›

end KeptWrites

/-- What each part of an output field start keeps, the field start keeps (R1, log 13). -/
theorem KeptParts.kept {P : State → Prop} (K : KeptParts P) : Kept P where
  toKeptWrites := K.toKeptWrites
  startField s t h ht := by
    refine State.startField_keeps { s with timing := t } (K.bypass _ ?_) (fun u e rest hu he _ => K.release u e rest hu he)
      K.auto K.exchange K.decide K.picture K.tally K.status
    refine State.watchLanes_keeps (fun u n hn hu => ?_) _ (K.begin s t h ht)
    obtain ⟨k, hk, rfl⟩ := List.mem_map.1 hn
    have := List.mem_range.1 hk
    exact K.watchLane hu (by simp [isLane]; omega)

/-! ### The rows -/

namespace Kept

variable {P : State → Prop} (K : Kept P)
include K

theorem conditions (n : Nat) (ps : List (ConditionKind × Int)) {s : State} (h : P s) :
    P (s.postConditions n ps) := by
  induction ps generalizing s with
  | nil => exact h
  | cons p ps ih => exact ih (K.condition h _ _ _)

theorem notice {s : State} (h : P s) (tag : Tag) (k : Nat) (r : Reason) (n : Nat) :
    P (s.postNotice tag k r n) :=
  K.reports s _ h fun w => w.notice _ _

theorem noticeIf {s : State} (h : P s) (b : Bool) (tag : Tag) (c : Command) (r : Reason) :
    P (s.noticeIf b tag c r) := by
  unfold State.noticeIf
  split
  · exact K.notice h _ _ _ _
  · exact h

/-! #### The Timing Unit -/

theorem starts {s : State} (h : P s) : P s.startField :=
  K.startField s s.timing h s.timing.alignsTo_refl

theorem alignedStart {s : State} (h : P s) : P s.alignedStart := by
  refine K.startField s _ h ⟨rfl, rfl, fun hi => ?_⟩
  show (if s.timing.format.interlaced = true then _ else _) = _
  rw [hi]; rfl

theorem lockAtStart {s : State} (h : P s) : P s.lockAtStart := by
  have hl : P { s with timing := s.timing.enterLocked } := K.timing s _ h (by exact ⟨rfl, rfl, rfl, rfl, rfl⟩)
  simp only [State.lockAtStart]
  split
  · exact K.alignedStart hl
  · exact hl

theorem followStart {s : State} (h : P s) : P s.followStart := by
  unfold State.followStart
  split
  · split
    · exact K.alignedStart h
    · exact h
  · exact K.starts h

theorem enterHoldover {s : State} (h : P s) (cause : HoldoverCause) : P (s.enterHoldover cause) := by
  have hl : P ({ s with timing := s.timing.enterHoldover }.postCondition .refLost 0 (holdoverDetail cause)) :=
    K.condition (K.timing s _ h (by exact ⟨rfl, rfl, rfl, rfl, rfl⟩)) _ _ _
  simp only [State.enterHoldover]
  split
  · exact K.starts hl
  · exact hl

theorem referenceStart {s : State} (h : P s) (correct : Bool) (period : Nat) :
    P (s.referenceStart correct period) := by
  have ht : ∀ t : Timing, s.timing.runsTo t → P { s with timing := t } := fun t => K.timing s t h
  simp only [State.referenceStart]
  split
  · exact ht _ (by exact ⟨rfl, rfl, rfl, rfl, rfl⟩)
  · exact ht _ (by exact ⟨rfl, rfl, rfl, rfl, rfl⟩)
  · split
    · split
      · exact K.lockAtStart (ht _ (by exact ⟨rfl, rfl, rfl, rfl, rfl⟩))
      · exact ht _ (by exact ⟨rfl, rfl, rfl, rfl, rfl⟩)
    · exact ht _ (by exact ⟨rfl, rfl, rfl, rfl, rfl⟩)
  · split
    · exact K.followStart (ht _ (by exact ⟨rfl, rfl, rfl, rfl, rfl⟩))
    · split
      · exact K.enterHoldover (ht _ (by exact ⟨rfl, rfl, rfl, rfl, rfl⟩)) _
      · exact K.followStart (ht _ (by exact ⟨rfl, rfl, rfl, rfl, rfl⟩))

theorem fieldPulse {s : State} (h : P s) (ticks lines : Nat) (opens : Parity) :
    P (s.fieldPulse ticks lines opens) := by
  simp only [State.fieldPulse]
  split
  · exact K.referenceStart (K.timing s _ h (by exact ⟨rfl, rfl, rfl, rfl, rfl⟩)) _ _
  · exact K.timing s _ h (by exact ⟨rfl, rfl, rfl, rfl, rfl⟩)

theorem silence {s : State} (h : P s) : P s.silence := by
  have ht : ∀ t : Timing, s.timing.runsTo t → P { s with timing := t } := fun t => K.timing s t h
  simp only [State.silence]
  split
  · exact h
  · split
    · exact ht _ (by exact ⟨rfl, rfl, rfl, rfl, rfl⟩)
    · exact K.enterHoldover (ht _ (by exact ⟨rfl, rfl, rfl, rfl, rfl⟩)) _
    · exact ht _ (by exact ⟨rfl, rfl, rfl, rfl, rfl⟩)
    · exact ht _ (by exact ⟨rfl, rfl, rfl, rfl, rfl⟩)

theorem searchTimeout {s : State} (h : P s) : P s.searchTimeout := by
  unfold State.searchTimeout
  split
  · exact K.startField s _ h (by exact ⟨rfl, rfl, fun _ => rfl⟩)
  · exact h

theorem periodExpires {s : State} (h : P s) : P s.periodExpires := by
  unfold State.periodExpires
  split
  · exact h
  · exact K.startField s _ h (by exact ⟨rfl, rfl, fun _ => rfl⟩)

theorem presentationPoint {s : State} (h : P s) : P s.presentationPoint := by
  unfold State.presentationPoint
  split
  · exact K.decide _ (K.timing s _ h (by exact ⟨rfl, rfl, rfl, rfl, rfl⟩))
  · exact h

theorem enterLockedRow {s : State} (h : P s) :
    P (if s.timing.ref = .locking then
        if s.timing.refSeen ∧ s.timing.sinceRef = 0 then s.lockAtStart
        else { s with timing := s.timing.enterLocked }
      else s) := by
  split
  · split
    · exact K.lockAtStart h
    · exact K.timing s _ h (by exact ⟨rfl, rfl, rfl, rfl, rfl⟩)
  · exact h

theorem enterHoldoverRow {s : State} (h : P s) (cause : HoldoverCause) :
    P (if s.timing.ref = .locked then
        match cause with
        | .silence => { s with timing := { s.timing with silent := true } }.enterHoldover .silence
        | .incorrectFields =>
          { s with timing := { s.timing with wrong := 2 } }.enterHoldover .incorrectFields
      else s) := by
  split
  · split
    · exact K.enterHoldover (K.timing s _ h (by exact ⟨rfl, rfl, rfl, rfl, rfl⟩)) _
    · exact K.enterHoldover (K.timing s _ h (by exact ⟨rfl, rfl, rfl, rfl, rfl⟩)) _
  · exact h

/-! #### The lanes -/

theorem laneToDown {s : State} (h : P s) {n : Nat} (hn : isLane n = true) : P (s.laneToDown n) :=
  K.condition (K.lane s n _ h hn fun w =>
    w.leaves .down (by decide) (Nat.zero_le _) (Nat.zero_le _) false false) _ _ _

theorem laneErrorsReached {s : State} (h : P s) {n : Nat} (hn : isLane n = true) :
    P (s.laneErrorsReached n) := by
  refine K.condition (K.lane s n _ h hn fun w => ?_) _ _ _
  obtain ⟨-, -, -, -, -, -, -, -, hb, -, hm⟩ := id w
  exact w.leaves .seek (by decide) hb hm false (s.lane n).mismatch

theorem laneFieldStart {s : State} (h : P s) (n elapsed : Nat) : P (s.laneFieldStart n elapsed) := by
  simp only [State.laneFieldStart]
  split
  · have hl := K.conditions n ((s.lane n).afterStart s.timing elapsed).posts
      (K.lane s n _ h ‹_› fun w => w.afterStart s.timing elapsed)
    split
    · exact K.receiver _ _ hl ⟨fun _ => Nat.zero_le _, fun _ => Nat.zero_le _, .inr (.inr rfl)⟩
    · exact hl
  · exact h

theorem laneLine {s : State} (h : P s) (n : Nat) (x : Line) (c : LinkWord) : P (s.laneLine n x c) := by
  simp only [State.laneLine]
  split
  · rename_i hn
    obtain ⟨a, b, e⟩ : ∃ a b, (if n = laneC then s.lane n else (s.lane n).store s.timing.format x) =
        { s.lane n with pictureCurrent := a, pictureNext := b } := by
      split
      · exact ⟨_, _, rfl⟩
      · exact (s.lane n).store_bounded_fields _ _
    rw [e]
    split
    · rename_i hbad
      have hl : P (s.setLane n
          { s.lane n with
            pictureCurrent := a, pictureNext := b, lines := (s.lane n).lines + 1
            bad := (s.lane n).bad + 1 }) :=
        K.lane s n _ h hn.1 fun ⟨h1, h2, h3, h4, h5, h6, h7, h8, _, h10, h11⟩ =>
          ⟨h1, h2, h3, h4, h5, h6, h7, h8, hbad.2, h10, h11⟩
      split
      · exact K.laneErrorsReached hl hn.1
      · exact hl
    · exact K.lane s n _ h hn.1 id
  · exact h

theorem laneErrorsRow {s : State} (h : P s) (n : Nat) :
    P (if isLane n ∧ (s.lane n).state ≠ .down then
        (s.setLane n { s.lane n with bad := (s.lane n).limitInForce }).laneErrorsReached n
      else s) := by
  split
  · rename_i hn
    refine K.laneErrorsReached (K.lane s n _ h hn.1 ?_) hn.1
    exact fun ⟨h1, h2, h3, h4, h5, h6, h7, h8, _, h10, h11⟩ =>
      ⟨h1, h2, h3, h4, h5, h6, h7, h8, le_rfl, h10, h11⟩
  · exact h

theorem laneDownRow {s : State} (h : P s) (n : Nat) :
    P (if isLane n ∧ (s.lane n).state ≠ .down then s.laneToDown n else s) := by
  split
  · rename_i hn
    exact K.laneToDown h hn.1
  · exact h

/-! #### The control lane -/

theorem endReception {s : State} (h : P s) : P s.endReception :=
  K.receiver s _ h ⟨id, id, .inr (.inl rfl)⟩

theorem dropPacket {s : State} (h : P s) (d : Int) : P (s.dropPacket d) :=
  K.condition (K.endReception h) _ _ _

theorem offer {s : State} (h : P s) (tag : Tag) {c : Command} (ha : c.admissible = true)
    (hn : c.atArrival = false) {due : FieldNo} (hd : ahead s.timing.counter due ≤ 32767)
    (clamped late : Bool) : P (s.offer tag c due clamped late) := by
  unfold State.offer
  split
  · exact K.notice h _ _ _ _
  · rename_i hl
    have hi := K.insert _ ⟨c, tag, due⟩ (K.noticeIf h clamped tag c .clamped) ha hn
      (by rw [State.noticeIf_waiting]; omega) (by rw [State.noticeIf_timing]; exact hd)
    refine K.noticeIf ?_ _ _ _ _
    simp only [State.holdAfterInsertion, length_insertEntry]
    simp only [PendingList.inserted] at hi
    split
    · rename_i hh
      simp only [hh.1, decide_true, Bool.or_true] at hi
      exact K.condition hi _ _ _
    · rename_i hh
      convert hi using 3
      simp only [State.noticeIf_waiting] at hh ⊢
      cases hw : s.waiting.hold <;> simp_all

theorem classify {s : State} (h : P s) (tag : Tag) {c : Command} (ha : c.admissible = true)
    (hn : c.atArrival = false) (due : Option FieldNo) (clamped : Bool) :
    P (s.classify tag c due clamped) := by
  have hc : ahead s.timing.counter s.timing.counter ≤ 32767 := by simp [ahead]
  unfold State.classify
  split
  · exact K.offer h tag ha hn hc _ _
  · simp only
    split
    · exact K.offer h tag ha hn ‹_› _ _
    · split
      · exact K.offer h tag ha hn hc _ _
      · exact K.notice h _ _ _ _

theorem arrive {s : State} (h : P s) (p : List Byte) : P (s.arrive p) := by
  unfold State.arrive
  split
  · exact K.notice h _ _ _ _
  · rename_i c due hv
    obtain ⟨-, -, -, -, hr, hl⟩ := validate_passed hv
    have ha := c.clamp_admissible hr hl
    split
    · rename_i hn
      exact K.deliver s _ c h (c.clamp_of_atArrival hn ▸ ha)
    · rename_i hn
      refine K.classify h _ ha ?_ _ _
      rw [c.clamp_tests.2.2.1]
      exact Bool.eq_false_iff.2 hn

theorem acceptPacket {s : State} (h : P s) (p : List Byte) : P (s.acceptPacket p) := by
  unfold State.acceptPacket
  split
  · exact K.condition (K.receiver s _ h (by exact ⟨id, fun _ => Nat.min_le_left _ _, .inr (.inr rfl)⟩)) _ _ _
  · have ht : s.receiver.taken + 1 ≤ 16 := by omega
    exact K.arrive (K.receiver s _ h (by exact ⟨fun _ => ht, id, .inr (.inr rfl)⟩)) _

theorem judgePacket {s : State} (h : P s) (hp : s.takesPackets = true) (words : List LinkWord) :
    P (s.judgePacket words) := by
  unfold State.judgePacket
  split
  · exact K.receiver s _ h ⟨id, id, .inl hp⟩
  · simp only
    split
    · exact K.dropPacket h _
    · split
      · exact K.receiver s _ h ⟨id, id, .inl hp⟩
      · split
        · exact K.acceptPacket (K.endReception h) _
        · exact K.dropPacket h _

theorem controlPacket {s : State} (h : P s) (words : List LinkWord) : P (s.controlPacket words) := by
  unfold State.controlPacket
  split
  · rename_i hw
    exact K.judgePacket h hw.1 _
  · exact h

theorem startReception {s : State} (h : P s) (words : List LinkWord) : P (s.startReception words) := by
  unfold State.startReception
  split
  · exact K.judgePacket h ‹_› _
  · exact h

theorem controlBlankingEnd {s : State} (h : P s) : P s.controlBlankingEnd := by
  unfold State.controlBlankingEnd
  split
  · exact K.dropPacket h _
  · exact h

/-! #### The checker and the reports -/

theorem judgeField {s : State} (h : P s) : P s.judgeField := by
  unfold State.judgeField
  split
  · split
    · exact h
    · split
      · exact K.checker s _ h id
      · exact h
    · have hc : P { s with checker := s.checker.count (fieldSamples s.timing.format) s.mismatches } :=
        K.checker s _ h fun w => Checker.count_inRange w _ _
      simp only [State.countField]
      split
      · exact K.condition hc _ _ _
      · exact hc
  · exact h

theorem formReports {s : State} (h : P s) : P s.formReports := by
  have status : ∀ u : State, P u → P u.formStatus := fun u hu => by
    unfold State.formStatus
    split
    · refine K.checker { u with packets := u.packets ++ [framePacket .status u.statusPayload] } _
        (K.packets u _ hu) ?_
      exact id
    · exact hu
  have tally : ∀ u : State, P u → P u.formTallyPacket := fun u hu => by
    unfold State.formTallyPacket
    split
    · exact K.packets u _ hu
    · exact hu
  have notices : ∀ u : State, P u → P u.formNotices := fun u hu => by
    unfold State.formNotices
    split
    · refine K.reports { u with packets := u.packets ++ [framePacket .notices u.noticesPayload] } _
        (K.packets u _ hu) ?_
      exact fun ⟨_, _, w⟩ => ⟨Nat.zero_le _, Nat.zero_le 255, w⟩
    · exact hu
  unfold State.formReports
  split
  · exact notices _ (tally _ (status _ (K.packets s _ h)))
  · exact h

/-! #### The panel commands -/

theorem command {s : State} (h : P s) (tag : Tag) (c : Command) : P (s.command tag c) := by
  unfold State.command
  split
  · exact K.notice h _ _ _ _
  · split
    · exact K.notice h _ _ _ _
    · rename_i hr hl
      exact K.deliver _ _ _ (K.noticeIf h _ _ _ _)
        (c.clamp_admissible (Bool.eq_true_of_not_eq_false hr) (Bool.eq_false_iff.2 hl))

/-- What every primitive write keeps, every row keeps. -/
theorem exec {s t : State} {i : Instr} (h : P s) (e : Machine.exec i s = .next t) : P t := by
  by_cases hc : ∃ tc, i.command? = some tc
  · obtain ⟨⟨tag, c⟩, hc⟩ := hc
    rw [exec_of_command hc] at e
    cases e
    exact K.command h tag c
  · cases i <;> first | exact absurd ⟨_, rfl⟩ hc | injection e with e; subst e
    case powerReset => exact K.reset s _ h
    case pinReset => exact K.reset s _ h
    case fieldPulse => exact K.fieldPulse h _ _ _
    case enterLocked => exact K.enterLockedRow h
    case enterHoldover => exact K.enterHoldoverRow h _
    case silence => exact K.silence h
    case alignmentSearchTimeout => exact K.searchTimeout h
    case outputFieldStart => exact K.periodExpires h
    case laneDown => exact K.laneDownRow h _
    case laneFieldStart => exact K.laneFieldStart h _ _
    case laneLine => exact K.laneLine h _ _ _
    case laneErrors => exact K.laneErrorsRow h _
    case controlPacket => exact K.controlPacket h _
    case controlBlankingEnd => exact K.controlBlankingEnd h
    case checkerJudgment => exact K.judgeField h
    case reportFormation => exact K.formReports h
    case presentationPoint => exact K.presentationPoint h
    case packetInReceptionStart => exact K.startReception h _

/-- What every primitive write keeps, and does not look at the queue, every step keeps. -/
theorem step {s t : State} (hq : ∀ (u : State) l, P u → P { u with pending := l }) (h : P s)
    (e : Machine.step s = .next t) : P t := by
  unfold Machine.step at e
  split at e
  · cases e; exact h
  · exact K.exec (hq s _ h) e

end Kept
end Sys2Proof.Machine
end

section
/-!
SUPPORT and RESULTS. What every row keeps of the queue, of the Report Builder and the path checker, of the
Pending List, and of the crosspoints.
-/

namespace Sys2Proof.Machine

open Sys2Proof

/-! ### The queue (log 1) -/

theorem kept_pending (q : List Instr) : Kept fun s => s.pending = q :=
  KeptParts.kept
    { reset := fun _ _ h => h
      timing := fun _ _ h _ => h
      reports := fun _ _ h _ => h
      checker := fun _ _ h _ => h
      packets := fun _ _ h => h
      receiver := fun _ _ h _ => h
      lane := fun _ _ _ h _ _ => h
      decide := fun _ h => h
      insert := fun _ _ h _ _ _ _ => h
      deliver := fun s tag c h _ => (s.deliver_keeps_rest tag c).1.trans h
      begin := fun _ _ h _ => h
      bypass := fun _ h => h
      release := fun s e _ h _ =>
        (State.deliver_keeps_rest { s with waiting := s.waiting.removeHead } e.tag e.command).1.trans h
      auto := fun s e h => (s.stepEngine_only e).pending.trans h
      exchange := fun _ h => h
      picture := fun _ h => h
      tally := fun _ h => h
      status := fun _ h => h }

/-- Every row answers a next state (log 1). -/
theorem exec_answers (c : Instr) (s : State) : ∃ t, exec c s = .next t := by
  cases c <;> exact ⟨_, rfl⟩

/-- Settles O2: a next state by each row's arm, the queue by the induction over the writes of a row. -/
theorem everyCommandCompletesAndKeepsTheQueue : Obligations.EveryCommandCompletesAndKeepsTheQueue := by
  intro c s
  obtain ⟨t, ht⟩ := exec_answers c s
  exact ⟨t, ht, (kept_pending s.pending).exec rfl ht⟩

/-! ### The Report Builder and the path checker (R168, R176, R177) -/

section
variable {s : State} (h : s.reports.wf) (tag : Tag)
include h

theorem Reports.wf.posted (k : Nat) (r : Reason) (n : Nat) : (s.postNotice tag k r n).reports.wf :=
  Reports.wf.notice h _ _

theorem Reports.wf.takeOne (e : EngineId) : (State.takeOne tag s e).reports.wf := by
  unfold State.takeOne
  split
  · split
    · exact Reports.wf.posted h tag _ _ _
    · split <;> exact h
  all_goals exact Reports.wf.posted h tag _ _ _

theorem Reports.wf.cutOne (e : EngineId) : (State.cutOne tag s e).reports.wf := by
  unfold State.cutOne
  split
  · split
    · exact Reports.wf.posted h tag _ _ _
    · exact h
  all_goals split <;> exact h

theorem Reports.wf.holdOne (e : EngineId) : (State.holdOne tag s e).reports.wf := by
  unfold State.holdOne
  split
  · exact h
  all_goals exact Reports.wf.posted h tag _ _ _

theorem Reports.wf.resumeOne (e : EngineId) : (State.resumeOne tag s e).reports.wf := by
  unfold State.resumeOne
  split
  · exact h
  all_goals exact Reports.wf.posted h tag _ _ _

theorem Reports.wf.deliverLever (me : Me) (p : Nat) : (s.deliverLever tag me p).reports.wf := by
  simp only [State.deliverLever, State.leverIdle, State.leverRunning, State.leverPickup]
  split
  · split
    · exact h
    split
    · exact h
    split
    · exact Reports.wf.posted h tag _ _ _
    split <;> exact h
  · split
    · exact h
    split <;> exact h
  iterate 2
    split
    · split <;> exact h
    split <;> exact h
  · exact h

/-- A delivery keeps the lists of the Report Builder within their capacities (R176, R177). -/
theorem Reports.wf.deliver (c : Command) : (s.deliver tag c).reports.wf := by
  cases c with
  | take set => exact State.forEngines_keeps (P := fun u => u.reports.wf) (fun _ e hu => Reports.wf.takeOne hu tag e) s set h
  | cut set => exact State.forEngines_keeps (P := fun u => u.reports.wf) (fun _ e hu => Reports.wf.cutOne hu tag e) s set h
  | hold set => exact State.forEngines_keeps (P := fun u => u.reports.wf) (fun _ e hu => Reports.wf.holdOne hu tag e) s set h
  | resume set =>
    exact State.forEngines_keeps (P := fun u => u.reports.wf) (fun _ e hu => Reports.wf.resumeOne hu tag e) s set h
  | release set => exact State.forEngines_keeps (P := fun u => u.reports.wf) (f := State.releaseOne) (fun _ _ hu => hu) s set h
  | lever me p => exact Reports.wf.deliverLever h tag me p
  | select bus source =>
    simp only [State.deliver, State.deliverSelect]
    split
    · exact h
    · exact Reports.wf.posted h tag _ _ _
  | setTransition e t =>
    simp only [State.deliver, State.deliverSetTransition]
    split
    · exact h
    · split
      · exact Reports.wf.posted h tag _ _ _
      · exact h
  | setMatte m colour => cases m <;> exact h
  | setFormat f =>
    simp only [State.deliver, State.deliverSetFormat]
    split
    · exact h
    · exact Reports.wf.posted h tag _ _ _
  | clearConditionsAll =>
    obtain ⟨h1, h2, -⟩ := h
    exact ⟨h1, h2, Nat.zero_le 32, List.Pairwise.nil, fun _ h => nomatch h⟩
  | clearConditionsOne kind subject =>
    obtain ⟨h1, h2, h3, h4, h5⟩ := h
    show (Reports.fullAfterRemoval _).wf
    unfold Reports.fullAfterRemoval
    split <;>
      exact ⟨h1, h2, (List.length_filter_le _ _).trans h3, h4.filter _, fun c hc => h5 c (List.mem_of_mem_filter hc)⟩
  | engineReset =>
    obtain ⟨-, -, h3⟩ := h
    exact ⟨Nat.zero_le 8, Nat.zero_le 255, h3⟩
  | _ => exact h

end

/-- A delivery keeps the counters of the path checker within 16 bits (R168). -/
theorem Checker.countersInRange.deliver {s : State} (h : s.checker.countersInRange) (tag : Tag) (c : Command) :
    (s.deliver tag c).checker.countersInRange := by
  have zero : (0 : Nat) ≤ 65535 := Nat.zero_le _
  by_cases he : isEngineCommand c = true
  · rw [(s.deliver_engine tag c he).checker]; exact h
  · cases c with
    | checkerStart | snapshotClear | engineReset => exact ⟨zero, zero, zero⟩
    | select | setFormat =>
      simp only [State.deliver, State.deliverSelect, State.deliverSetFormat]
      split <;> exact h
    | setMatte m => cases m <;> exact h
    | _ => first | exact absurd rfl he | exact h

theorem kept_reports : Kept fun s => s.reports.wf ∧ s.checker.countersInRange :=
  KeptParts.kept
    { reset := fun _ _ _ => by
        refine ⟨⟨Nat.zero_le 8, Nat.zero_le 255, Nat.zero_le 32, List.Pairwise.nil, fun _ h => nomatch h⟩, ?_⟩
        exact ⟨Nat.zero_le _, Nat.zero_le _, Nat.zero_le _⟩
      timing := fun _ _ h _ => h
      reports := fun _ _ h hr => ⟨hr h.1, h.2⟩
      checker := fun _ _ h hc => ⟨h.1, hc h.2⟩
      packets := fun _ _ h => h
      receiver := fun _ _ h _ => h
      lane := fun _ _ _ h _ _ => h
      decide := fun _ h => h
      insert := fun _ _ h _ _ _ _ => h
      deliver := fun _ tag c h _ => ⟨Reports.wf.deliver h.1 tag c, Checker.countersInRange.deliver h.2 tag c⟩
      begin := fun _ _ h _ => h
      bypass := fun _ h => h
      release := fun s e _ h _ =>
        ⟨Reports.wf.deliver (s := { s with waiting := s.waiting.removeHead }) h.1 e.tag e.command,
          Checker.countersInRange.deliver (s := { s with waiting := s.waiting.removeHead }) h.2 e.tag e.command⟩
      auto := fun s e h => by
        refine ⟨?_, (s.stepEngine_only e).checker ▸ h.2⟩
        simp only [State.stepEngine]
        split
        · split <;> exact h.1
        · exact h.1
      exchange := fun _ h => h
      picture := fun _ h => h
      tally := fun _ h => h
      status := fun _ h => h }

/-- Settles O58, by the induction over the writes of a row. -/
theorem everyStepKeepsReportsAndCounters : Obligations.EveryStepKeepsReportsAndCounters :=
  fun _ _ hr hc e => kept_reports.step (fun _ _ h => h) ⟨hr, hc⟩ e

end Sys2Proof.Machine
end

section
/-!
SUPPORT and RESULTS. What every row keeps of the Pending List: what a delivery may do to it, the release of the
due entries, and the order read forward from a field counter that advances (R33 to R35).
-/

namespace Sys2Proof.Machine

open Sys2Proof

/-! ### Removals -/

/-- List `w'` is `w` with entries removed and the hold flag re-evaluated (R30, R34, R38). -/
def PendingList.thinned (w w' : PendingList) : Prop :=
  ∃ l : List Entry, l.Sublist w.entries ∧ w' = { w with entries := l }.holdAfterRemoval

theorem PendingList.thinned.sublist {w w' : PendingList} (h : w.thinned w') :
    w'.entries.Sublist w.entries := by
  obtain ⟨l, hl, rfl⟩ := h
  rw [PendingList.holdAfterRemoval_entries]
  exact hl

theorem PendingList.thinned.holdAgrees {w w' : PendingList} (h : w.thinned w') (hw : w.holdAgrees) :
    w'.holdAgrees := by
  obtain ⟨l, hl, rfl⟩ := h
  have hlen := hl.length_le
  obtain ⟨above, -⟩ := hw
  simp only [PendingList.holdAgrees, PendingList.holdAfterRemoval_entries,
    PendingList.holdAfterRemoval_hold, Bool.and_eq_true, Bool.and_eq_false_iff, decide_eq_true_eq,
    decide_eq_false_iff_not]
  exact ⟨fun h => ⟨above (h.trans hlen), by omega⟩, fun h => .inr (by omega)⟩

theorem PendingList.thinned_empty (w : PendingList) : w.thinned ⟨[], false⟩ :=
  ⟨[], List.nil_sublist _, rfl⟩

/-- The head of the list leaves it (R35). -/
theorem PendingList.thinned_removeHead (w : PendingList) : w.thinned w.removeHead :=
  ⟨w.entries.tail, List.tail_sublist _, rfl⟩

/-- A delivery leaves the Pending List as it is, or removes entries of it (R30, R38). -/
theorem State.deliver_thins (s : State) (tag : Tag) (c : Command) :
    (s.deliver tag c).waiting = s.waiting ∨ s.waiting.thinned (s.deliver tag c).waiting := by
  by_cases hc : c = .engineReset
  · subst hc
    exact .inr s.waiting.thinned_empty
  · by_cases ha : c.atArrival = true
    · cases c with
      | purgeAll => exact .inr ⟨[], List.nil_sublist _, rfl⟩
      | purgeTag named => exact .inr ⟨_, List.filter_sublist, rfl⟩
      | bypass source => exact .inl rfl
      | _ => cases ha
    · exact .inl (s.deliver_waiting tag c hc (Bool.eq_false_iff.2 ha))

theorem State.deliver_sublist (s : State) (tag : Tag) (c : Command) :
    (s.deliver tag c).waiting.entries.Sublist s.waiting.entries := by
  rcases s.deliver_thins tag c with h | h
  · rw [h]
  · exact h.sublist

theorem State.deliver_holdAgrees (s : State) (tag : Tag) (c : Command) (h : s.waiting.holdAgrees) :
    (s.deliver tag c).waiting.holdAgrees := by
  rcases s.deliver_thins tag c with h' | h'
  · rw [h']; exact h
  · exact h'.holdAgrees h

/-- A delivery leaves the field counter and the number of the field in progress (R1). -/
theorem State.deliver_numbers (s : State) (tag : Tag) (c : Command) :
    (s.deliver tag c).timing.counter = s.timing.counter ∧ (s.deliver tag c).timing.field = s.timing.field := by
  rcases s.deliver_timing tag c with h | ⟨f, -, h⟩ <;> rw [h] <;> exact ⟨rfl, rfl⟩

/-- The delivery of the head leaves a part of the list's tail. -/
theorem State.deliverHead_sublist (s : State) (e : Entry) {rest : List Entry}
    (he : s.waiting.entries = e :: rest) :
    ({ s with waiting := s.waiting.removeHead }.deliver e.tag e.command).waiting.entries.Sublist rest := by
  refine (State.deliver_sublist _ _ _).trans ?_
  show s.waiting.removeHead.entries.Sublist rest
  rw [PendingList.removeHead, PendingList.holdAfterRemoval_entries]
  simp [he]

/-- After the release no entry due at the field heads the list (R35). -/
theorem State.release_head : ∀ (fuel : Nat) (s : State), s.waiting.entries.length ≤ fuel →
    ∀ e rest, (State.release fuel s).waiting.entries = e :: rest →
      e.due ≠ (State.release fuel s).timing.field
  | 0, s, hf, e, rest, he => by
    rw [State.release] at he
    rw [he] at hf
    exact absurd hf (by simp)
  | fuel + 1, s, hf, e, rest, he => by
    rw [State.release] at he ⊢
    split at he
    · rename_i hs
      rw [hs] at he
      cases he
    · rename_i e' rest' hs
      split at he
      · rename_i hdue
        simp only [hdue, if_true]
        refine State.release_head fuel _ ?_ e rest he
        rw [hs] at hf
        exact (s.deliverHead_sublist e' hs).length_le.trans (Nat.le_of_succ_le_succ hf)
      · rename_i hdue
        simp only [hdue, if_false]
        rw [hs] at he
        cases he
        exact hdue

/-! ### The order of the list (R33) -/

theorem ahead_eq_zero {n x : FieldNo} : ahead n x = 0 ↔ x = n := by
  unfold ahead
  bv_omega

/-- Seen from the next field, what is still ahead is one field nearer. -/
theorem ahead_succ {n x : FieldNo} (h : x ≠ n) : ahead (n + 1) x = ahead n x - 1 := by
  unfold ahead
  bv_omega

/-- The list is within its capacity, ahead of field `n` and in order of due field read forward from `n` (R33). -/
def orderedFrom (n : FieldNo) (l : List Entry) : Prop :=
  l.length ≤ 64 ∧ (∀ e ∈ l, ahead n e.due ≤ 32767) ∧ l.Pairwise fun a b => ahead n a.due ≤ ahead n b.due

theorem State.listOrdered_iff (s : State) :
    s.listOrdered ↔ orderedFrom s.timing.counter s.waiting.entries := Iff.rfl

theorem orderedFrom.sublist {n : FieldNo} {l l' : List Entry} (h : orderedFrom n l) (hl : l'.Sublist l) :
    orderedFrom n l' :=
  ⟨hl.length_le.trans h.1, fun e he => h.2.1 e (hl.subset he), h.2.2.sublist hl⟩

theorem orderedFrom.insert {n : FieldNo} {l : List Entry} (h : orderedFrom n l) {e : Entry}
    (hl : l.length < 64) (he : ahead n e.due ≤ 32767) : orderedFrom n (insertEntry n e l) := by
  refine ⟨by rw [length_insertEntry]; exact hl, fun x hx => ?_, insertEntry_ordered n e l h.2.2⟩
  rcases (mem_insertEntry n e x l).1 hx with rfl | hx
  · exact he
  · exact h.2.1 x hx

/-- A list that no due entry heads is in order from the next field too. -/
theorem orderedFrom.turn {n : FieldNo} {l : List Entry} (h : orderedFrom n l)
    (hd : ∀ e rest, l = e :: rest → e.due ≠ n) : orderedFrom (n + 1) l := by
  have hne : ∀ e ∈ l, e.due ≠ n := by
    cases l with
    | nil => exact fun e he => nomatch he
    | cons x rest =>
      intro e he heq
      have hx : ahead n x.due ≠ 0 := fun h0 => hd x rest rfl (ahead_eq_zero.1 h0)
      have hle : ahead n x.due ≤ ahead n e.due := by
        rcases List.mem_cons.1 he with rfl | he
        · exact le_rfl
        · exact List.rel_of_pairwise_cons h.2.2 he
      rw [ahead_eq_zero.2 heq] at hle
      omega
  refine ⟨h.1, fun e he => ?_, h.2.2.imp_of_mem fun {a b} ha hb hab => ?_⟩
  · rw [ahead_succ (hne e he)]
    exact (Nat.sub_le _ _).trans (h.2.1 e he)
  · rw [ahead_succ (hne a ha), ahead_succ (hne b hb)]
    omega

/-- Of the field counter and the Pending List an output field start leaves what the release leaves. -/
theorem State.startField_waiting (s : State) :
    s.startField.waiting = s.beginField.watchLanes.applyBypass.releaseDue.waiting := by
  simp only [State.startField, State.takeStatus_waiting, State.formTally_waiting, State.takePicture_waiting,
    State.decideLanes_waiting, State.exchange_waiting]
  exact (State.stepEngines_only _).waiting

/-- An output field start keeps the list in order, now read forward from the next field (R33, R35). -/
theorem State.startField_ordered (s : State) (h : s.listOrdered) (hh : s.waiting.holdAgrees) :
    s.startField.listOrdered ∧ s.startField.waiting.holdAgrees := by
  obtain ⟨-, hcounter, -⟩ := s.startField_numbers
  rw [State.listOrdered_iff, hcounter, s.startField_waiting]
  unfold State.releaseDue
  generalize hu : s.beginField.watchLanes.applyBypass = u
  have hw : u.waiting = s.waiting := by simp [← hu]
  have hf : u.timing.field = s.timing.counter := by simp [← hu, Timing.turnField]
  have hr := State.release_keeps
    (P := fun t => t.timing.field = s.timing.counter ∧ orderedFrom s.timing.counter t.waiting.entries ∧
      t.waiting.holdAgrees)
    (fun t e rest ⟨hn, ho, ha⟩ he _ => by
      refine ⟨(State.deliver_numbers _ _ _).2.trans hn, ?_, ?_⟩
      · exact ho.sublist ((t.deliverHead_sublist e he).trans (he ▸ List.sublist_cons_self e rest))
      · exact State.deliver_holdAgrees _ _ _ (t.waiting.thinned_removeHead.holdAgrees ha))
    u.waiting.entries.length u ⟨hf, hw ▸ h, hw ▸ hh⟩
  have hhead := State.release_head u.waiting.entries.length u le_rfl
  obtain ⟨hn, ho, ha⟩ := hr
  rw [hn] at hhead
  exact ⟨ho.turn hhead, ha⟩

theorem kept_waiting : Kept fun s => s.listOrdered ∧ s.waiting.holdAgrees where
  reset _ _ _ := ⟨⟨Nat.zero_le 64, (fun _ h => nomatch h), List.Pairwise.nil⟩, by
    constructor <;> simp [State.resetPart, State.resetBy]⟩
  timing s t h ht := by
    refine ⟨?_, h.2⟩
    show orderedFrom t.counter _
    rw [ht.1]
    exact h.1
  reports _ _ h _ := h
  checker _ _ h _ := h
  packets _ _ h := h
  receiver _ _ h _ := h
  lane _ _ _ h _ _ := h
  decide _ h := h
  insert s e h _ _ hl hd := by
    refine ⟨orderedFrom.insert h.1 hl hd, ?_⟩
    obtain ⟨above, below⟩ := h.2
    simp only [PendingList.holdAgrees, PendingList.inserted, length_insertEntry, Bool.or_eq_true,
      Bool.or_eq_false_iff, decide_eq_true_eq, decide_eq_false_iff_not]
    exact ⟨.inr, fun h => ⟨below (by omega), by omega⟩⟩
  deliver s tag c h _ := by
    refine ⟨?_, s.deliver_holdAgrees tag c h.2⟩
    rw [State.listOrdered_iff, (s.deliver_numbers tag c).1]
    exact orderedFrom.sublist h.1 (s.deliver_sublist tag c)
  startField s t h ht := by
    refine State.startField_ordered { s with timing := t } ?_ h.2
    show orderedFrom t.counter _
    rw [ht.1]
    exact h.1

/-- Settles O54: outside a field start by the induction over the writes of a row; at a field start the release
leaves no due entry, so that the order read from the field that begins is the order read from the next. -/
theorem everyStepKeepsThePendingList : Obligations.EveryStepKeepsThePendingList :=
  fun _ _ ho hh e => kept_waiting.step (fun _ _ h => h) ⟨ho, hh⟩ e

end Sys2Proof.Machine
end

section
/-!
SUPPORT and RESULTS. What every row keeps of the waiting entries and the crosspoints (R26, R29, R60, R69), of
the tables, the generators and parity (R1, R8, R40, R44, R160, R163).
-/

namespace Sys2Proof.Machine

open Sys2Proof

/-! ### Admissible entries (R26, R28) -/

/-- A delivery and a removal leave admissible entries (R26, R28). -/
theorem State.entriesAdmissible.sublist {s t : State} (h : s.entriesAdmissible)
    (hl : t.waiting.entries.Sublist s.waiting.entries) : t.entriesAdmissible :=
  fun e he => h e (hl.subset he)

theorem State.entriesAdmissible.deliver {s : State} (h : s.entriesAdmissible) (tag : Tag) (c : Command) :
    (s.deliver tag c).entriesAdmissible :=
  State.entriesAdmissible.sublist h (s.deliver_sublist tag c)

theorem State.entriesAdmissible.insert {s : State} (h : s.entriesAdmissible) {e : Entry}
    (ha : e.command.admissible = true) (hn : e.command.atArrival = false) :
    State.entriesAdmissible { s with waiting := s.waiting.inserted s.timing.counter e } := fun x hx => by
  rcases (mem_insertEntry _ e x _).1 hx with rfl | hx
  · exact ⟨ha, hn⟩
  · exact h x hx

theorem State.entriesAdmissible.head {s : State} (h : s.entriesAdmissible) {e : Entry} {rest : List Entry}
    (he : s.waiting.entries = e :: rest) : e.command.admissible = true ∧ e.command.atArrival = false :=
  h e (he ▸ List.mem_cons_self)

/-- The state as the delivery of the head finds it (R35). -/
theorem State.entriesAdmissible.removeHead {s : State} (h : s.entriesAdmissible) :
    State.entriesAdmissible { s with waiting := s.waiting.removeHead } :=
  State.entriesAdmissible.sublist h s.waiting.thinned_removeHead.sublist

/-- What an admissible command has passed (R26, R28). -/
theorem Command.admissible_iff (c : Command) :
    c.admissible = true ↔ c.inRange = true ∧ c.loops = false ∧ c.clamp = c := by
  simp [Command.admissible, and_assoc]

/-! ### The crosspoints (R60) -/

/-- The buses keep the re-entry restriction (R60). -/
def reentryFree (v : Vector Nat 20) : Prop :=
  (∀ b, b ≤ 7 → look v b 0 ≤ 28) ∧ ∀ b, 8 ≤ b → b ≤ 19 → look v b 0 ≤ 29

theorem State.busesKeepReentry_iff (s : State) :
    s.busesKeepReentry ↔ reentryFree s.matrix.buses ∧ reentryFree s.picture.buses := by
  simp only [State.busesKeepReentry, reentryFree, State.bus]
  constructor
  · rintro ⟨h1, h2⟩
    exact ⟨⟨fun b h => (h1 b h).1, fun b h h' => (h2 b h h').1⟩, fun b h => (h1 b h).2,
      fun b h h' => (h2 b h h').2⟩
  · rintro ⟨⟨h1, h2⟩, h3, h4⟩
    exact ⟨fun b h => ⟨h1 b h, h3 b h⟩, fun b h h' => ⟨h2 b h h', h4 b h h'⟩⟩

theorem reentryFree.put {v : Vector Nat 20} (h : reentryFree v) {b n : Nat} (h7 : b ≤ 7 → n ≤ 28)
    (h8 : 8 ≤ b → n ≤ 29) : reentryFree (put v b n) := by
  refine ⟨fun c hc => ?_, fun c hc hc' => ?_⟩ <;> rw [look_put] <;> split
  · exact h7 (by omega)
  · exact h.1 c hc
  · exact h8 (by omega)
  · exact h.2 c hc hc'

/-- An A/B exchange of one bank keeps the re-entry restriction (R60, R67). -/
theorem reentryFree.exchangeTimes {v : Vector Nat 20} (h : reentryFree v) {a b : Nat}
    (hab : a ≤ 7 ∧ b ≤ 7 ∨ 8 ≤ a ∧ a ≤ 19 ∧ 8 ≤ b ∧ b ≤ 19) (k : Nat) : reentryFree (exchangeTimes v a b k) := by
  unfold Machine.exchangeTimes exchangeBuses
  split
  · rcases hab with ⟨ha, hb⟩ | ⟨ha, ha', hb, hb'⟩
    · exact (h.put (fun _ => h.1 b hb) (by omega)).put (fun _ => h.1 a ha) (by omega)
    · exact (h.put (by omega) (fun _ => h.2 b hb hb')).put (by omega) (fun _ => h.2 a ha ha')
  · exact h

theorem reentryFree.exchange {m : Matrix} (h : reentryFree m.buses) : reentryFree m.exchange.buses :=
  (h.exchangeTimes (.inl (by decide)) _).exchangeTimes (.inr (by decide)) _

/-- An admissible SELECT keeps the re-entry restriction (R26, R60). -/
theorem reentryFree.deliver {s : State} (h : reentryFree s.matrix.buses) (tag : Tag) {c : Command}
    (ha : c.admissible = true) : reentryFree (s.deliver tag c).matrix.buses := by
  by_cases he : isEngineCommand c = true
  · rw [(s.deliver_engine tag c he).buses]; exact h
  · cases c with
    | select bus source =>
      simp only [State.deliver, State.deliverSelect]
      split
      · obtain ⟨hr, hl, -⟩ := (Command.admissible_iff _).1 ha
        simp only [Command.inRange, Command.loops, Bool.and_eq_true, decide_eq_true_eq, Bool.or_eq_false_iff,
          Bool.and_eq_false_iff, decide_eq_false_iff_not, beq_eq_false_iff_ne] at hr hl
        exact h.put (by omega) (by omega)
      · exact h
    | setFormat =>
      simp only [State.deliver, State.deliverSetFormat]
      split <;> exact h
    | setMatte m => cases m <;> exact h
    | _ => first | exact absurd rfl he | exact h

/-- A delivery keeps the range of the bypass and of its request (R29, R69). -/
theorem State.bypassInRange.deliver {s : State} (h : s.bypassInRange) (tag : Tag) {c : Command}
    (ha : c.admissible = true) : (s.deliver tag c).bypassInRange := by
  have hp := (s.deliver_keeps_rest tag c).2.2.2.2.2
  obtain ⟨h1, h2, h3⟩ := h
  by_cases hn : c.atArrival = true
  · cases c with
    | bypass source => exact ⟨h1, ((Command.admissible_iff _).1 ha).1, h3⟩
    | purgeAll | purgeTag => exact ⟨h1, h2, h3⟩
    | _ => cases hn
  · obtain ⟨hb, hs⟩ := s.deliver_bypass tag c (Bool.eq_false_iff.2 hn)
    exact ⟨hb ▸ h1, hs ▸ h2, hp ▸ h3⟩

/-- The claim of O55, block by block. -/
def State.crosspointsWf (s : State) : Prop :=
  s.entriesAdmissible ∧ (reentryFree s.matrix.buses ∧ reentryFree s.picture.buses) ∧ s.bypassInRange

theorem State.crosspointsWf.deliver {s : State} (h : s.crosspointsWf) (tag : Tag) {c : Command}
    (ha : c.admissible = true) : (s.deliver tag c).crosspointsWf := by
  obtain ⟨he, ⟨hb, hp⟩, hy⟩ := h
  refine ⟨he.deliver tag c, ⟨hb.deliver tag ha, ?_⟩, hy.deliver tag ha⟩
  rw [(s.deliver_keeps_rest tag c).2.2.2.2.2]
  exact hp

theorem kept_crosspoints : Kept State.crosspointsWf :=
  KeptParts.kept
    { reset := fun _ _ _ => by
        have free : reentryFree Matrix.reset.buses := ⟨by decide, by decide⟩
        exact ⟨nofun, ⟨free, free⟩, rfl, rfl, rfl⟩
      timing := fun _ _ h _ => h
      reports := fun _ _ h _ => h
      checker := fun _ _ h _ => h
      packets := fun _ _ h => h
      receiver := fun _ _ h _ => h
      lane := fun _ _ _ h _ _ => h
      decide := fun _ h => h
      insert := fun _ _ h ha hn _ _ => ⟨h.1.insert ha hn, h.2⟩
      deliver := fun _ tag _ h ha => h.deliver tag ha
      begin := fun _ _ h _ => h
      bypass := fun s h => by
        obtain ⟨he, hb, h1, h2, h3⟩ := h
        refine ⟨he, ⟨?_, hb.2⟩, ?_⟩
        · simp only [State.applyBypass, Matrix.applyBypass]
          split <;> exact hb.1
        · simp only [State.applyBypass, Matrix.applyBypass, State.bypassInRange]
          split
          · rename_i source hs
            rw [hs] at h2
            exact ⟨h2, rfl, h3⟩
          · exact ⟨h1, h2, h3⟩
      release := fun s e rest h he =>
        State.crosspointsWf.deliver ⟨h.1.removeHead, h.2⟩ e.tag (h.1.head he).1
      auto := fun s e h => by
        have f := s.stepEngine_only e
        refine ⟨h.1.sublist (by rw [f.waiting]), ?_, ?_⟩
        · rw [f.buses, f.picture]; exact h.2.1
        · rw [State.bypassInRange, f.bypass, f.staged, f.picture]; exact h.2.2
      exchange := fun _ h => ⟨h.1, ⟨h.2.1.1.exchange, h.2.1.2⟩, h.2.2⟩
      picture := fun _ h => ⟨h.1, ⟨h.2.1.1, h.2.1.1⟩, h.2.2.1, h.2.2.2.1, h.2.2.1⟩
      tally := fun _ h => h
      status := fun _ h => h }

/-- Settles O55: the induction over the writes of a row, on the buses of the state and of the picture. -/
theorem everyStepKeepsTheReentryRestriction : Obligations.EveryStepKeepsTheReentryRestriction := by
  intro s t he hb hy e
  obtain ⟨h1, h2, h3⟩ := kept_crosspoints.step (fun _ _ h => h) ⟨he, s.busesKeepReentry_iff.1 hb, hy⟩ e
  exact ⟨h1, t.busesKeepReentry_iff.2 h2, h3⟩

/-! ### Tables, generators and parity -/

theorem Tables.pointsInRange_iff (t : Tables) :
    t.pointsInRange ↔ (∀ n i, look (look t.curves n identityCurve) i 0 ≤ 1024) ∧
      ∀ n i, look (look t.shadowCurves n identityCurve) i 0 ≤ 1024 :=
  ⟨fun h => ⟨fun n i => (h n i).1, fun n i => (h n i).2⟩, fun h n i => ⟨h.1 n i, h.2 n i⟩⟩

theorem writePoints_le {c : Curve} (points : List Nat) (h : ∀ i, look c i 0 ≤ 1024)
    (hp : ∀ p ∈ points, p ≤ 1024) (first i : Nat) : look (writePoints c first points) i 0 ≤ 1024 := by
  induction points generalizing c first with
  | nil => exact h i
  | cons p rest ih =>
    refine ih (fun j => ?_) (fun q hq => hp q (List.mem_cons_of_mem _ hq)) _
    rw [look_put]
    split
    · exact hp p List.mem_cons_self
    · exact h j

/-- Points that R28 leaves as they are do not pass 1024. -/
theorem le_of_map_min {points : List Nat} (h : points.map (min · 1024) = points) : ∀ p ∈ points, p ≤ 1024 := by
  intro p hp
  rw [← h] at hp
  obtain ⟨q, -, rfl⟩ := List.mem_map.1 hp
  exact Nat.min_le_right _ _

theorem Tables.pointsInRange.loadCurve {t : Tables} (h : t.pointsInRange) {n first : Nat} {points : List Nat}
    (hp : ∀ p ∈ points, p ≤ 1024) : (t.loadCurve n first points).pointsInRange := by
  rw [Tables.pointsInRange_iff] at h ⊢
  refine ⟨h.1, fun m i => ?_⟩
  simp only [Tables.loadCurve, look_put]
  split
  · exact writePoints_le points (h.2 n) hp first i
  · exact h.2 m i

theorem Tables.pointsInRange.commit {t : Tables} (h : t.pointsInRange) (kinds : TableSet) :
    (t.commit kinds).pointsInRange := by
  rw [Tables.pointsInRange_iff] at h ⊢
  refine ⟨fun n i => ?_, h.2⟩
  simp only [Tables.commit]
  split
  · exact h.2 n i
  · exact h.1 n i

theorem Tables.dirtyAgrees.commit {t : Tables} (h : t.dirtyAgrees) (kinds : TableSet) :
    (t.commit kinds).dirtyAgrees := by
  obtain ⟨h1, h2, h3⟩ := h
  obtain ⟨a, b, c⟩ := kinds
  refine ⟨?_, ?_, ?_⟩
  · cases a <;> [exact h1; exact fun _ => rfl]
  · cases b <;> [exact h2; exact fun _ => rfl]
  · cases c <;> [exact h3; exact fun _ => rfl]

/-- The tables and the generators as O59 has them. -/
def State.storesWf (s : State) : Prop :=
  s.tables.dirtyAgrees ∧ s.tables.pointsInRange ∧ s.generators.wf

/-- A colour that R28 leaves as it is, is legal (R160). -/
theorem Colour.legal_of_clamped {c : Colour}
    (h : (⟨Sys2Proof.clamp c.y 64 940, Sys2Proof.clamp c.cb 64 960, Sys2Proof.clamp c.cr 64 960⟩ : Colour) = c) :
    64 ≤ c.y ∧ c.y ≤ 940 ∧ 64 ≤ c.cb ∧ c.cb ≤ 960 ∧ 64 ≤ c.cr ∧ c.cr ≤ 960 := by
  rw [← h]
  have hy := clamp_bounds c.y (show 64 ≤ 940 by decide)
  have hb := clamp_bounds c.cb (show 64 ≤ 960 by decide)
  have hr := clamp_bounds c.cr (show 64 ≤ 960 by decide)
  exact ⟨hy.1, hy.2, hb.1, hb.2, hr.1, hr.2⟩

theorem Generators.wf.deliverSetMatte {s : State} (h : s.generators.wf) {m : Matte} {c : Colour}
    (hc : 64 ≤ c.y ∧ c.y ≤ 940 ∧ 64 ≤ c.cb ∧ c.cb ≤ 960 ∧ 64 ≤ c.cr ∧ c.cr ≤ 960) :
    (s.deliverSetMatte m c).generators.wf := by
  obtain ⟨legal, test⟩ := h
  cases m
  · exact ⟨fun d hd => hd.elim (· ▸ hc) fun hd => legal d (.inr hd), test⟩
  · exact ⟨fun d hd => hd.elim (fun hd => legal d (.inl hd)) (· ▸ hc), test⟩

/-- A delivery of an admissible command keeps tables and generators (R40, R44, R160). -/
theorem State.storesWf.deliver {s : State} (h : s.storesWf) (tag : Tag) {c : Command}
    (ha : c.admissible = true) : (s.deliver tag c).storesWf := by
  have hc := ((Command.admissible_iff c).1 ha).2.2
  by_cases he : isEngineCommand c = true
  · have f := s.deliver_engine tag c he
    rw [State.storesWf, f.tables, f.generators]; exact h
  · obtain ⟨hd, hp, hg⟩ := h
    cases c with
    | loadShape => exact ⟨⟨nofun, hd.2⟩, hp, hg⟩
    | loadCurve n first points =>
      injection hc with _ _ hc
      exact ⟨⟨hd.1, nofun, hd.2.2⟩, hp.loadCurve (le_of_map_min hc), hg⟩
    | loadSource => exact ⟨⟨hd.1, hd.2.1, nofun⟩, hp, hg⟩
    | commit kinds => exact ⟨hd.commit kinds, hp.commit kinds, hg⟩
    | setMatte m c =>
      injection hc with _ hc
      have hg' := hg.deliverSetMatte (m := m) (Colour.legal_of_clamped hc)
      cases m <;> exact ⟨hd, hp, hg'⟩
    | select | setFormat =>
      simp only [State.deliver, State.deliverSelect, State.deliverSetFormat]
      split <;> exact ⟨hd, hp, hg⟩
    | _ => first | exact absurd rfl he | exact ⟨hd, hp, hg⟩

theorem Timing.parityAgrees.changeFormat (t : Timing) (f : Format) : (t.changeFormat f).parityAgrees := by
  refine ⟨fun h => ⟨rfl, h⟩, fun h _ => h⟩

theorem Timing.parityAgrees.deliver {s : State} (h : s.timing.parityAgrees) (tag : Tag) (c : Command) :
    (s.deliver tag c).timing.parityAgrees := by
  rcases s.deliver_timing tag c with h' | ⟨f, -, h'⟩ <;> rw [h']
  · exact h
  · exact .changeFormat _ f

theorem Timing.parityAgrees.runsTo {t t' : Timing} (h : t.parityAgrees) (ht : t.runsTo t') :
    t'.parityAgrees := by
  obtain ⟨-, hf, hp, hn, hs⟩ := ht
  rw [Timing.parityAgrees, hf, hp, hn, hs]
  exact h

/-- A field that begins takes next parity, and both agree again (R1). -/
theorem Timing.parityAgrees.turnField {t t' : Timing} (h : t.parityAgrees) (ht : t.alignsTo t') :
    t'.turnField.parityAgrees := by
  obtain ⟨-, hf, hn⟩ := ht
  simp only [Timing.parityAgrees, Timing.turnField, hf]
  refine ⟨fun hi => ⟨(hn hi).trans (h.1 hi).2, by rw [hi]; rfl⟩, fun hi _ => by rw [hi]; rfl⟩

theorem identityCurve_le (i : Nat) : look identityCurve i 0 ≤ 1024 := by
  by_cases h : i < 33
  · rw [look_of_lt _ h]
    simp only [identityCurve, Vector.getElem_mk, List.getElem_toArray, List.getElem_map, List.getElem_range]
    omega
  · rw [look_of_le _ (Nat.le_of_not_lt h)]
    exact Nat.zero_le _

theorem Tables.reset_pointsInRange : Tables.reset.pointsInRange := by
  have hc : ∀ n, look (Vector.replicate 8 identityCurve) n identityCurve = identityCurve := fun n => by
    by_cases h : n < 8
    · rw [look_of_lt _ h, Vector.getElem_replicate]
    · rw [look_of_le _ (Nat.le_of_not_lt h)]
  intro n i
  simp only [Tables.reset, hc]
  exact ⟨identityCurve_le i, identityCurve_le i⟩

theorem Generators.reset_wf : (⟨Colour.black, Colour.black, 1⟩ : Generators).wf :=
  ⟨by rintro c (rfl | rfl) <;> decide, by decide⟩

theorem kept_stores : Kept fun s => s.entriesAdmissible ∧ s.storesWf ∧ s.timing.parityAgrees :=
  KeptParts.kept
    { reset := fun s cause _ => by
        exact ⟨nofun, ⟨⟨fun _ => rfl, fun _ => rfl, fun _ => rfl⟩, Tables.reset_pointsInRange, Generators.reset_wf⟩,
          nofun, nofun⟩
      timing := fun _ _ h ht => ⟨h.1, h.2.1, h.2.2.runsTo ht⟩
      reports := fun _ _ h _ => h
      checker := fun _ _ h _ => h
      packets := fun _ _ h => h
      receiver := fun _ _ h _ => h
      lane := fun _ _ _ h _ _ => h
      decide := fun _ h => h
      insert := fun _ _ h ha hn _ _ => ⟨h.1.insert ha hn, h.2⟩
      deliver := fun _ tag c h ha => ⟨h.1.deliver tag c, h.2.1.deliver tag ha, h.2.2.deliver tag c⟩
      begin := fun _ _ h ht => ⟨h.1, ⟨h.2.1.1, h.2.1.2.1, h.2.1.2.2.1, Nat.le_refl 1, (by decide : 1 ≤ 32767)⟩, h.2.2.turnField ht⟩
      bypass := fun _ h => h
      release := fun s e rest h he =>
        ⟨h.1.removeHead.deliver e.tag e.command,
          State.storesWf.deliver (s := { s with waiting := s.waiting.removeHead }) h.2.1 e.tag (h.1.head he).1,
          Timing.parityAgrees.deliver (s := { s with waiting := s.waiting.removeHead }) h.2.2 e.tag e.command⟩
      auto := fun s e h => by
        have f := s.stepEngine_only e
        refine ⟨h.1.sublist (by rw [f.waiting]), ?_⟩
        rw [State.storesWf, f.tables, f.generators, f.timing]; exact h.2
      exchange := fun _ h => h
      picture := fun _ h => h
      tally := fun _ h => h
      status := fun _ h => h }

/-- Settles O59, by the induction over the writes of a row. -/
theorem everyStepKeepsTablesGeneratorsAndParity : Obligations.EveryStepKeepsTablesGeneratorsAndParity := by
  intro s t he hd hp hg hy e
  obtain ⟨-, ⟨h1, h2, h3⟩, h4⟩ := kept_stores.step (fun _ _ h => h) ⟨he, ⟨hd, hp, hg⟩, hy⟩ e
  exact ⟨h1, h2, h3, h4⟩

end Sys2Proof.Machine
end

section
/-!
SUPPORT and RESULTS. What every row keeps of the lanes and the Command Receiver (R10 to R16, R23, R24), and of the
five engines (R55, R75, R78, R80, R81, R99); the state after reset.
-/

namespace Sys2Proof.Machine

open Sys2Proof

/-! ### Lanes and Command Receiver -/

theorem isLane_iff (n : Nat) : isLane n = true ↔ 1 ≤ n ∧ n ≤ 25 := by simp [isLane]

/-- The lane records and the Command Receiver in their ranges. -/
def State.lanesWf (s : State) : Prop := (∀ n, isLane n = true → (s.lane n).wf) ∧ s.receiverWf

theorem State.lanesWf.of_eq {s t : State} (h : s.lanesWf) (hl : t.lanes = s.lanes) (hr : t.receiver = s.receiver) :
    t.lanesWf := by
  have e : ∀ n, t.lane n = s.lane n := fun n => by rw [State.lane, State.lane, hl]
  simp only [State.lanesWf, State.receiverWf, State.takesPackets, e, hr]
  exact h

theorem State.lanesWf.setLane {s : State} (h : s.lanesWf) {n : Nat} (hn : isLane n = true) {l : Lane}
    (hl : (s.lane n).wf → l.wf) : (s.setLane n l).lanesWf := by
  obtain ⟨lanes, taken, dropped, reception⟩ := h
  refine ⟨fun m hm => ?_, ?_, ?_, fun ht => ?_⟩
  · rw [State.lane_setLane s hn hm]
    split
    · exact hl (lanes n hn)
    · exact lanes m hm
  · simp only [State.setLane]; split <;> exact taken
  · simp only [State.setLane]; split <;> exact dropped
  · rw [State.takesPackets, State.lane_setLane s hn (by decide)] at ht
    simp only [State.setLane]
    by_cases hc : n = laneC
    · rw [if_pos hc] at ht
      rw [if_pos ⟨hc, ht⟩]
    · rw [if_neg hc] at ht
      rw [if_neg fun h => hc h.1]
      exact reception ht

theorem State.lanesWf.decideLanes {s : State} (h : s.lanesWf) : s.decideLanes.lanesWf := by
  have e : ∀ n, isLane n = true → s.decideLanes.lane n = (s.lane n).decide := fun n => s.lane_decideLanes
  obtain ⟨lanes, taken, dropped, reception⟩ := h
  refine ⟨fun n hn => ?_, taken, dropped, fun ht => reception ?_⟩
  · rw [e n hn]; exact Lane.wf.decide (lanes n hn)
  · rw [State.takesPackets, e laneC (by decide)] at ht
    exact ht

theorem State.lanesWf.reseekLanes {s : State} (h : s.lanesWf) (p : Nat → Bool) (b : Bool) :
    (s.reseekLanes p b).lanesWf := by
  obtain ⟨lanes, taken, dropped, reception⟩ := h
  refine ⟨fun n hn => ?_, ?_, ?_, fun ht => ?_⟩
  · rw [s.lane_reseekLanes p b hn]
    split
    · exact Lane.wf.leaves (lanes n hn) .seek (by decide) (Nat.zero_le _) (Nat.zero_le _) false false
    · exact lanes n hn
  · simp only [State.reseekLanes]; split <;> exact taken
  · simp only [State.reseekLanes]; split <;> exact dropped
  · rw [State.takesPackets, s.lane_reseekLanes p b (by decide)] at ht
    simp only [State.reseekLanes]
    split
    · rfl
    · rw [if_neg ‹_›] at ht
      exact reception ht

/-- A delivery of an admissible command keeps the lanes and the Command Receiver in their ranges (R18, R20). -/
theorem State.lanesWf.deliver {s : State} (h : s.lanesWf) (tag : Tag) {c : Command} (ha : c.admissible = true) :
    (s.deliver tag c).lanesWf := by
  by_cases he : isEngineCommand c = true
  · have f := s.deliver_engine tag c he
    exact h.of_eq f.lanes f.receiver
  · cases c with
    | setLane n l =>
      obtain ⟨hr, -, hc⟩ := (Command.admissible_iff _).1 ha
      simp only [Command.inRange, Bool.and_eq_true, decide_eq_true_eq] at hr
      obtain ⟨⟨⟨h1, h25⟩, hl1⟩, hl15⟩ := hr
      have hw : min l.window 16 = l.window := congrArg (fun c => match c with
        | .setLane _ l => l.window | _ => 0) hc
      refine h.setLane ((isLane_iff n).2 ⟨h1, h25⟩) fun ⟨w1, w2, w3, _, _, _, w⟩ => ?_
      exact ⟨w1, w2, w3, hw ▸ Nat.min_le_right _ _, hl1, hl15, w⟩
    | reseek lanes => exact h.reseekLanes _ _
    | setFormat f =>
      simp only [State.deliver, State.deliverSetFormat]
      split
      · exact State.lanesWf.decideLanes
          (State.lanesWf.reseekLanes (s := { s with timing := s.timing.changeFormat f }) h _ _)
      · exact h
    | select =>
      simp only [State.deliver, State.deliverSelect]
      split <;> exact h
    | setMatte m => cases m <;> exact h
    | _ => first | exact absurd rfl he | exact h

theorem State.resetBy_lanesWf (cause : ResetCause) : (State.resetBy cause).lanesWf := by
  refine ⟨fun n hn => ?_, Nat.zero_le 16, Nat.zero_le 255, fun _ => rfl⟩
  have hl : (State.resetBy cause).lane n = Lane.reset := by
    rw [isLane_iff] at hn
    have : n - 1 < 25 := by omega
    rw [State.lane, look_of_lt _ this]
    exact Vector.getElem_replicate _
  rw [hl]
  unfold Lane.wf
  decide

theorem kept_lanes : Kept fun s => s.entriesAdmissible ∧ s.lanesWf :=
  KeptParts.kept
    { reset := fun s cause _ => by
        have h : (s.resetPart cause).lanesWf := (State.resetBy_lanesWf cause).of_eq rfl rfl
        exact ⟨nofun, h⟩
      timing := fun _ _ h _ => h
      reports := fun _ _ h _ => h
      checker := fun _ _ h _ => h
      packets := fun _ _ h => h
      receiver := fun s r h hr => by
        obtain ⟨he, hl, taken, dropped, reception⟩ := h
        obtain ⟨ht, hd, hp⟩ := hr
        refine ⟨he, hl, ht taken, hd dropped, fun hn => ?_⟩
        rcases hp with hp | hp | hp
        · exact absurd (hp.symm.trans hn) (by decide)
        · exact hp
        · exact hp.trans (reception hn)
      lane := fun _ _ _ h hn hl => ⟨h.1, h.2.setLane hn hl⟩
      decide := fun _ h => ⟨h.1, h.2.decideLanes⟩
      insert := fun _ _ h ha hn _ _ => ⟨h.1.insert ha hn, h.2⟩
      deliver := fun _ tag c h ha => ⟨h.1.deliver tag c, h.2.deliver tag ha⟩
      begin := fun _ _ h _ => h
      bypass := fun _ h => h
      release := fun s e rest h he =>
        ⟨h.1.removeHead.deliver e.tag e.command,
          State.lanesWf.deliver (s := { s with waiting := s.waiting.removeHead }) h.2 e.tag (h.1.head he).1⟩
      auto := fun s e h => by
        have f := s.stepEngine_only e
        exact ⟨h.1.sublist (by rw [f.waiting]), h.2.of_eq f.lanes f.receiver⟩
      exchange := fun _ h => h
      picture := fun _ h => h
      tally := fun _ h => h
      status := fun _ h => h }

/-- Settles O57: the ranges of a lane record by each judgement and each line, the rest by the induction over
the writes of a row. -/
theorem everyStepKeepsTheLanes : Obligations.EveryStepKeepsTheLanes :=
  fun _ _ he hl hr e => (kept_lanes.step (fun _ _ h => h) ⟨he, hl, hr⟩ e).2

/-! ### The engines -/

/-- A lever record in its range: OFFSIDE stands only away from the rest end (R95, R99). -/
def LeverRecord.wf (l : LeverRecord) : Prop := l.last ≤ 1024 ∧ (l.offside = true → l.effective ≠ 0)

theorem LeverRecord.effective_le {l : LeverRecord} (h : l.last ≤ 1024) : l.effective ≤ 1024 := by
  unfold LeverRecord.effective
  split <;> omega

/-- The lever record after a completion is in its range; after one by the lever the effective position was
1024 and the flip brings it to 0 (R97). -/
theorem LeverRecord.wf.afterCompletion {l : LeverRecord} (h : l.wf) (b : Bool) : (l.afterCompletion b).wf := by
  unfold LeverRecord.afterCompletion
  split
  · exact ⟨h.1, nofun⟩
  · split
    · exact ⟨h.1, fun _ => ‹_›⟩
    · exact h

/-- What stands in an engine record besides its run: rates, force and lever in range (R76, R95, R101). -/
def Engine.settingsWf (x : Engine) : Prop := x.next.rate ≤ 999 ∧ x.force.all (· ≤ 1024) = true ∧ x.lever.wf

theorem Engine.wf.settings {x : Engine} {e : EngineId} (h : x.wf e) : x.settingsWf :=
  ⟨h.2.2.1, h.2.2.2.1, h.2.2.2.2⟩

theorem Engine.wf.belongs {x : Engine} {e : EngineId} (h : x.wf e) {r : RunRecord} (hr : x.run = some r) :
    r.belongsTo e := h.2.1 r hr

/-- An engine with no run (R75). -/
theorem Engine.wf_idle {x : Engine} (e : EngineId) (hs : x.state = .idle) (hr : x.run = none) (hj : x.j = 0)
    (hq : x.q = 0) (h : x.settingsWf) : x.wf e := by
  refine ⟨?_, (fun r h' => nomatch hr.symm.trans h'), h.1, h.2.1, h.2.2⟩
  rw [hs, hr]
  exact ⟨rfl, hj, hq⟩

/-- An engine in AUTO or PAUSED (R80, R81). -/
theorem Engine.wf_auto {x : Engine} {e : EngineId} {r : RunRecord} (hs : x.state = .auto ∨ x.state = .paused)
    (hr : x.run = some r) (hb : r.belongsTo e) (hj : x.j < r.settings.rate) (h999 : r.settings.rate ≤ 999)
    (hq : x.q = x.j * 1024 / r.settings.rate) (h : x.settingsWf) : x.wf e := by
  refine ⟨?_, fun r' h' => ?_, h.1, h.2.1, h.2.2⟩
  · rcases hs with hs | hs <;> rw [hs, hr] <;> exact ⟨hj, h999, hq⟩
  · cases hr.symm.trans h'
    exact hb

/-- An engine in LEVER (R96, R97). -/
theorem Engine.wf_lever {x : Engine} {e : EngineId} {r : RunRecord} (hs : x.state = .lever)
    (hr : x.run = some r) (hb : r.belongsTo e) (hq : x.q = x.lever.effective) (h0 : x.lever.effective ≠ 0)
    (h1024 : x.lever.effective ≠ 1024) (h : x.settingsWf) : x.wf e := by
  have hle := LeverRecord.effective_le h.2.2.1
  refine ⟨?_, fun r' h' => ?_, h.1, h.2.1, h.2.2⟩
  · rw [hs, hr]
    exact ⟨hq, by omega, by omega⟩
  · cases hr.symm.trans h'
    exact hb

theorem Engine.wf.idle_fields {x : Engine} {e : EngineId} (h : x.wf e) (hs : x.state = .idle) :
    x.run = none ∧ x.j = 0 ∧ x.q = 0 := by
  have := h.1
  rw [hs] at this
  exact this

/-- Where a run stands in AUTO or PAUSED (R80, R81). -/
theorem Engine.wf.auto_fields {x : Engine} {e : EngineId} (h : x.wf e) (hs : x.state = .auto ∨ x.state = .paused)
    {r : RunRecord} (hr : x.run = some r) :
    x.j < r.settings.rate ∧ r.settings.rate ≤ 999 ∧ x.q = x.j * 1024 / r.settings.rate := by
  have := h.1
  rcases hs with hs | hs <;> rw [hs, hr] at this <;> exact this

theorem Engine.wf.run_isSome {x : Engine} {e : EngineId} (h : x.wf e) (hs : x.state ≠ .idle) :
    ∃ r, x.run = some r := by
  cases hr : x.run with
  | some r => exact ⟨r, rfl⟩
  | none =>
    have := h.1
    cases hx : x.state with
    | idle => exact absurd hx hs
    | _ => rw [hx, hr] at this; exact this.elim

/-- The engine with other settings: the run as it stands (R76, R77, R101, R103). -/
theorem Engine.wf.resettle {x : Engine} {e : EngineId} (h : x.wf e) {next : NextSettings} (sel : NextSel)
    {force : Option Nat} (hn : next.rate ≤ 999) (hf : force.all (· ≤ 1024) = true) :
    ({ x with next := next, sel := sel, force := force } : Engine).wf e := by
  obtain ⟨h1, h2, -, -, h5⟩ := h
  exact ⟨h1, h2, hn, hf, h5⟩

theorem Engines.wf.set {es : Engines} (h : es.wf) {e : EngineId} {x : Engine} (hx : x.wf e)
    (hd : e.isMe = false → x.downstream) : (es.set e x).wf := by
  constructor
  · intro f
    rw [Engines.get_set]
    split
    · rename_i hf; exact hf ▸ hx
    · exact h.1 f
  · intro f hf
    rw [Engines.get_set]
    split
    · rename_i hef; exact hd (hef ▸ hf)
    · exact h.2 f hf

section
variable {s : State} (h : s.engines.wf) (e : EngineId)
include h

theorem Engines.wf.engine : (s.engine e).wf e := h.1 e

/-- A completion leaves an engine with no run (R90). -/
theorem Engines.wf.complete (r : RunRecord) (b : Bool) : (s.complete e r b).engines.wf := by
  obtain ⟨h1, h2, h3⟩ := (h.1 e).settings
  refine Engines.wf.set h (Engine.wf_idle e rfl rfl rfl rfl ⟨h1, h2, h3.afterCompletion b⟩) fun hd => ?_
  exact ⟨nofun, (h.2 e hd).2⟩

/-- A completion right after the engine took a lever record (R96 to R98). -/
theorem Engines.wf.completeAfter {x : Engine} (hx : x.settingsWf) (hd : e.isMe = true) (r : RunRecord) (b : Bool) :
    ((s.setEngine e x).complete e r b).engines.wf := by
  obtain ⟨h1, h2, h3⟩ := hx
  have he : ((s.setEngine e x).complete e r b).engines =
      s.engines.set e { x.toIdle with lever := x.lever.afterCompletion b } := by
    rw [State.complete_engines, State.engine_setEngine_same]
    cases e <;> rfl
  rw [he]
  exact Engines.wf.set h (Engine.wf_idle e rfl rfl rfl rfl ⟨h1, h2, h3.afterCompletion b⟩)
    fun h => absurd (hd.symm.trans h) (by decide)

theorem Engines.wf.takeOne (tag : Tag) : (State.takeOne tag s e).engines.wf := by
  unfold State.takeOne
  split
  · rename_i hs
    split
    · exact h
    · split
      · exact h.complete e _ _
      · rename_i hrate
        obtain ⟨h1, h2, h3⟩ := (h.1 e).settings
        refine Engines.wf.set h (Engine.wf_auto (.inl rfl) rfl (s.latch_belongsTo e .auto)
          (Nat.pos_of_ne_zero hrate) h1 ?_ ⟨h1, h2, h3⟩) fun hd => ⟨nofun, (h.2 e hd).2⟩
        show 0 = 0 * 1024 / _
        rw [Nat.zero_mul, Nat.zero_div]
  all_goals exact h

theorem Engines.wf.cutOne (tag : Tag) : (State.cutOne tag s e).engines.wf := by
  unfold State.cutOne
  split
  · split
    · exact h
    · exact h.complete e _ _
  all_goals
    split
    · exact h.complete e _ _
    · exact h

/-- HOLD and RESUME keep the run, its step and q (R86, R87). -/
theorem Engines.wf.turns {x y : EngineState} (hs : (s.engine e).state = x) (hx : x = .auto ∨ x = .paused)
    (hy : y = .auto ∨ y = .paused) : (s.setEngine e { s.engine e with state := y }).engines.wf := by
  obtain ⟨r, hr⟩ := (h.1 e).run_isSome (by rw [show (s.engines.get e).state = x from hs]; rcases hx with rfl | rfl <;> decide)
  obtain ⟨h1, h2, h3⟩ := (h.1 e).auto_fields (hs ▸ hx) hr
  refine Engines.wf.set h (Engine.wf_auto hy hr ((h.1 e).belongs hr) h1 h2 h3 (h.1 e).settings) fun hd => ?_
  exact ⟨by rcases hy with rfl | rfl <;> simp, (h.2 e hd).2⟩

theorem Engines.wf.holdOne (tag : Tag) : (State.holdOne tag s e).engines.wf := by
  unfold State.holdOne
  split
  · exact h.turns e ‹_› (.inl rfl) (.inr rfl)
  all_goals exact h

theorem Engines.wf.resumeOne (tag : Tag) : (State.resumeOne tag s e).engines.wf := by
  unfold State.resumeOne
  split
  · exact h.turns e ‹_› (.inr rfl) (.inl rfl)
  all_goals exact h

/-- An engine that keeps its run takes other settings (R76, R77, R101, R103). -/
theorem Engines.wf.resettled {next : NextSettings} (sel : NextSel) {force : Option Nat} (hn : next.rate ≤ 999)
    (hf : force.all (· ≤ 1024) = true) (hd : e.isMe = false → next.style = .mix) :
    (s.setEngine e { s.engine e with next := next, sel := sel, force := force }).engines.wf :=
  Engines.wf.set h ((h.1 e).resettle sel hn hf) fun hm => ⟨(h.2 e hm).1, hd hm⟩

theorem Engines.wf.stepEngine : (s.stepEngine e).engines.wf := by
  simp only [State.stepEngine]
  split
  · rename_i r hs hr
    obtain ⟨h1, h2, -⟩ := (h.1 e).auto_fields (.inl hs) hr
    split
    · exact h.complete e _ _
    · rename_i hj
      refine Engines.wf.set h (Engine.wf_auto (.inl hs) hr ((h.1 e).belongs hr) ?_ h2 rfl (h.1 e).settings)
        fun hd => h.2 e hd
      have h1' : (s.engine e).j < r.settings.rate := h1
      show (s.engine e).j + 1 < r.settings.rate
      omega
  · exact h

/-- An engine that is not in LEVER takes a lever record in its range (R95, R98, R99). -/
theorem Engines.wf.leverStored {l : LeverRecord} (hl : l.wf) (hm : e.isMe = true)
    (hs : (s.engine e).state ≠ .lever) : (s.setEngine e { s.engine e with lever := l }).engines.wf := by
  obtain ⟨h3, h4, -⟩ := (h.1 e).settings
  refine Engines.wf.set h ?_ fun h => absurd (hm.symm.trans h) (by decide)
  cases hx : (s.engine e).state with
  | idle =>
    obtain ⟨hr, hj, hq⟩ := (h.1 e).idle_fields hx
    exact Engine.wf_idle e hx hr hj hq ⟨h3, h4, hl⟩
  | lever => exact absurd hx hs
  | auto =>
    obtain ⟨r, hr⟩ := (h.1 e).run_isSome (hx ▸ by decide : (s.engine e).state ≠ .idle)
    obtain ⟨h1, h2, hq⟩ := (h.1 e).auto_fields (.inl hx) hr
    exact Engine.wf_auto (.inl hx) hr ((h.1 e).belongs hr) h1 h2 hq ⟨h3, h4, hl⟩
  | paused =>
    obtain ⟨r, hr⟩ := (h.1 e).run_isSome (hx ▸ by decide : (s.engine e).state ≠ .idle)
    obtain ⟨h1, h2, hq⟩ := (h.1 e).auto_fields (.inr hx) hr
    exact Engine.wf_auto (.inr hx) hr ((h.1 e).belongs hr) h1 h2 hq ⟨h3, h4, hl⟩

/-- A run driven by the lever: at effective position 1024 it completes, else it stands in LEVER (R96 to R98). -/
theorem Engines.wf.leverDriven {x : Engine} {r : RunRecord} (hm : e.isMe = true) (hs : x.state = .lever)
    (hr : x.run = some r) (hb : r.belongsTo e) (hq : x.q = x.lever.effective) (h0 : x.lever.effective ≠ 0)
    (hx : x.settingsWf) :
    (if x.lever.effective = 1024 then (s.setEngine e x).complete e r true else s.setEngine e x).engines.wf := by
  split
  · exact h.completeAfter e hx hm r true
  · exact Engines.wf.set h (Engine.wf_lever hs hr hb hq h0 ‹_› hx) fun h => absurd (hm.symm.trans h) (by decide)

/-- The pickup (R98). -/
theorem Engines.wf.leverPickup (hm : e.isMe = true) (hs : (s.engine e).state ≠ .lever) {r : RunRecord}
    (hr : (s.engine e).run = some r) {stored : LeverRecord} (hl : stored.last ≤ 1024) :
    (s.leverPickup e r stored).engines.wf := by
  obtain ⟨h3, h4, -⟩ := (h.1 e).settings
  have hb : ({ r with driver := .lever } : RunRecord).belongsTo e :=
    show r.belongsTo e from (h.1 e).belongs hr
  simp only [State.leverPickup]
  split
  · rename_i hq
    exact h.leverDriven e
      (x := { s.engine e with
        state := .lever, q := stored.effective, run := some { r with driver := .lever }
        lever := { stored with offside := false } })
      hm rfl rfl hb rfl (Nat.ne_of_gt hq.2) ⟨h3, h4, hl, nofun⟩
  split
  · exact h.leverStored e ⟨hl, nofun⟩ hm hs
  · exact h.leverStored e ⟨hl, fun _ => ‹_›⟩ hm hs

/-- LEVER with a position in range (R95 to R99). -/
theorem Engines.wf.deliverLever (tag : Tag) (me : Me) {p : Nat} (hp : p ≤ 1024) :
    (s.deliverLever tag me p).engines.wf := by
  have hm : me.engine.isMe = true := by cases me <;> rfl
  generalize he : me.engine = e at hm
  obtain ⟨h3, h4, hl⟩ := (h.1 e).settings
  have rest : ∀ l : LeverRecord, l.last = p → (l.offside = true → l.effective ≠ 0) → l.wf :=
    fun l hl ho => ⟨hl ▸ hp, ho⟩
  simp only [State.deliverLever, he]
  generalize hst : ({ (s.engine e).lever with last := p } : LeverRecord) = stored
  have hlast : stored.last = p := by rw [← hst]
  split
  · rename_i hs
    simp only [State.leverIdle]
    split
    · exact h.leverStored e (rest _ hlast nofun) hm (by rw [hs]; decide)
    split
    · exact h.leverStored e (rest _ hlast fun _ => ‹_›) hm (by rw [hs]; decide)
    split
    · exact h
    · rename_i h0 ho _
      exact h.leverDriven e
        (x := { s.engine e with
          state := .lever, j := 0, q := stored.effective, run := some (s.latch e .lever), lever := stored })
        hm rfl rfl (s.latch_belongsTo e _) rfl h0 ⟨h3, h4, rest _ hlast fun _ => h0⟩
  · rename_i r hs hr
    simp only [State.leverRunning]
    split
    · exact Engines.wf.set h (Engine.wf_idle e rfl rfl rfl rfl ⟨h3, h4, rest _ hlast nofun⟩)
        fun h => absurd (hm.symm.trans h) (by decide)
    · rename_i h0
      exact h.leverDriven e (x := { s.engine e with q := stored.effective, lever := stored })
        hm hs hr ((h.1 e).belongs hr) rfl h0 ⟨h3, h4, rest _ hlast fun _ => h0⟩
  · rename_i r hs hr
    exact h.leverPickup e hm (by rw [hs]; decide) hr (hlast ▸ hp)
  · rename_i r hs hr
    exact h.leverPickup e hm (by rw [hs]; decide) hr (hlast ▸ hp)
  · exact h

end

/-- An engine at an ENGINE RESET is well formed (R104). -/
theorem Engines.wf.engineReset {es : Engines} (h : es.wf) : es.engineReset.wf := by
  have he : ∀ e, es.engineReset.get e = (es.get e).engineReset := fun e => by cases e <;> rfl
  have hl : LeverRecord.reset.wf := ⟨Nat.zero_le _, nofun⟩
  refine ⟨fun e => ?_, fun e hd => ?_⟩ <;> rw [he]
  · exact Engine.wf_idle e rfl rfl rfl rfl ⟨(h.1 e).settings.1, rfl, hl⟩
  · exact ⟨nofun, (h.2 e hd).2⟩

/-- A delivery of an admissible command keeps the five engines well formed. -/
theorem Engines.wf.deliver {s : State} (h : s.engines.wf) (tag : Tag) {c : Command} (ha : c.admissible = true) :
    (s.deliver tag c).engines.wf := by
  have hc := ((Command.admissible_iff c).1 ha).2.2
  have each : ∀ {f : State → EngineId → State} (set : EngineSet),
      (∀ (u : State) e, u.engines.wf → (f u e).engines.wf) → (s.forEngines set f).engines.wf :=
    fun set hf => State.forEngines_keeps (P := fun u => u.engines.wf) hf s set h
  cases c with
  | setNext me sel =>
    have w := h.1 me.engine
    exact h.resettled me.engine sel w.settings.1 w.settings.2.1 fun hd => (h.2 _ hd).2
  | setTransition e t =>
    have hrate : t.rate ≤ 999 := by
      have := congrArg (fun c => match c with | .setTransition _ t => t.rate | _ => 0) hc
      exact (show min t.rate 999 = t.rate from this) ▸ Nat.min_le_right _ _
    have w := h.1 e
    simp only [State.deliver, State.deliverSetTransition]
    split
    · rename_i hm
      exact h.resettled e _ hrate w.settings.2.1 fun hd => absurd (hm.symm.trans hd) (by decide)
    · split
      · exact h
      · exact h.resettled e _ hrate w.settings.2.1 fun hd => (h.2 e hd).2
  | take set => exact each set fun _ e hu => Engines.wf.takeOne hu e tag
  | cut set => exact each set fun _ e hu => Engines.wf.cutOne hu e tag
  | hold set => exact each set fun _ e hu => Engines.wf.holdOne hu e tag
  | resume set => exact each set fun _ e hu => Engines.wf.resumeOne hu e tag
  | release set =>
    refine each set fun u e hu => ?_
    exact Engines.wf.resettled hu e _ (hu.1 e).settings.1 rfl fun hd => (hu.2 e hd).2
  | lever me p =>
    injection hc with _ hp
    exact h.deliverLever tag me (hp ▸ Nat.min_le_right _ _)
  | force e value =>
    injection hc with _ hv
    exact h.resettled e _ (h.1 e).settings.1 (by simpa using hv ▸ Nat.min_le_right value 1024)
      fun hd => (h.2 e hd).2
  | engineReset => exact h.engineReset
  | select | setFormat =>
    simp only [State.deliver, State.deliverSelect, State.deliverSetFormat]
    split <;> exact h
  | setMatte m => cases m <;> exact h
  | _ => exact h

theorem Engines.reset_wf : Engines.reset.wf := by
  have hl : LeverRecord.reset.wf := ⟨Nat.zero_le _, nofun⟩
  constructor
  · intro e
    cases e <;> exact Engine.wf_idle _ rfl rfl rfl rfl ⟨by decide, rfl, hl⟩
  · intro e hd
    cases e with
    | me1 | me2 => cases hd
    | _ => exact ⟨nofun, rfl⟩

theorem kept_engines : Kept fun s => s.entriesAdmissible ∧ s.engines.wf :=
  KeptParts.kept
    { reset := fun s cause _ => ⟨nofun, Engines.reset_wf⟩
      timing := fun _ _ h _ => h
      reports := fun _ _ h _ => h
      checker := fun _ _ h _ => h
      packets := fun _ _ h => h
      receiver := fun _ _ h _ => h
      lane := fun _ _ _ h _ _ => h
      decide := fun _ h => h
      insert := fun _ _ h ha hn _ _ => ⟨h.1.insert ha hn, h.2⟩
      deliver := fun _ tag c h ha => ⟨h.1.deliver tag c, h.2.deliver tag ha⟩
      begin := fun _ _ h _ => h
      bypass := fun _ h => h
      release := fun s e rest h he =>
        ⟨h.1.removeHead.deliver e.tag e.command,
          Engines.wf.deliver (s := { s with waiting := s.waiting.removeHead }) h.2 e.tag (h.1.head he).1⟩
      auto := fun s e h =>
        ⟨h.1.sublist (by rw [(s.stepEngine_only e).waiting]), h.2.stepEngine e⟩
      exchange := fun _ h => h
      picture := fun _ h => h
      tally := fun _ h => h
      status := fun _ h => h }

/-- Settles O56: each operation of an engine by the state it leaves the engine in, the rest by the induction
over the writes of a row. -/
theorem everyStepKeepsTheEngines : Obligations.EveryStepKeepsTheEngines :=
  fun _ _ he hw e => (kept_engines.step (fun _ _ h => h) ⟨he, hw⟩ e).2

/-! ### The state after reset -/

/-- Settles O60: a reset establishes each property that the rows keep. -/
theorem resetMeetsWhatEveryStepKeeps : Obligations.ResetMeetsWhatEveryStepKeeps := by
  have free : reentryFree Matrix.reset.buses := ⟨by decide, by decide⟩
  have lanes := State.resetBy_lanesWf .power
  refine ⟨nofun, (State.busesKeepReentry_iff _).2 ⟨free, free⟩, ⟨rfl, rfl, rfl⟩,
    ⟨Nat.zero_le 64, nofun, List.Pairwise.nil⟩, ⟨fun h => absurd h (by decide), fun _ => rfl⟩, Engines.reset_wf,
    lanes.1, lanes.2, ⟨Nat.zero_le 8, Nat.zero_le 255, Nat.zero_le 32, List.Pairwise.nil, nofun⟩,
    ⟨Nat.zero_le _, Nat.zero_le _, Nat.zero_le _⟩, ⟨fun _ => rfl, fun _ => rfl, fun _ => rfl⟩,
    Tables.reset_pointsInRange, Generators.reset_wf, nofun, nofun⟩

end Sys2Proof.Machine
end

section
/-!
RESULTS. The Timing Unit (chapter 1): a reference field start by the reference state it is taken in, silence, the
rows ENTER_LOCKED and ENTER_HOLDOVER, and what an output field start takes.
-/

namespace Sys2Proof.Machine

open Sys2Proof

/-! ### The field starts of LOCKED and HOLDOVER -/

/-- The aligned field start ends the search, in the reference state that stood, and takes the parity that the
pulse opened in the interlaced format, and next parity the other (R5). -/
theorem State.alignedStart_of_none_due (s : State) (h : ∀ e ∈ s.waiting.entries, e.due ≠ s.timing.counter) :
    s.alignedStart.timing.ref = s.timing.ref ∧ s.alignedStart.timing.aligning = false ∧
      s.alignedStart.timing.heldInUse = s.timing.heldInUse ∧
      (s.timing.format = .interlaced1080 → s.alignedStart.timing.parity = s.timing.refParity ∧
        s.alignedStart.timing.nextParity = !s.timing.refParity) := by
  rw [State.alignedStart, (State.startField_timing_of_none_due _ (by exact h)).1]
  refine ⟨rfl, rfl, rfl, fun hf => ?_⟩
  have hi : s.timing.format.interlaced = true := (Format.interlaced_iff _).2 hf
  simp [Timing.turnField, hi]

/-- HOLDOVER entered when the held period has passed: a field starts at once, and with nothing due it runs at
the held period, with REF_LOST before any LANE_DOWN (R6). -/
theorem State.enterHoldover_passed (s : State) (cause : HoldoverCause)
    (h : (s.timing.period1 + s.timing.period2) / 2 ≤ s.timing.sinceField) :
    (s.enterHoldover cause).timing.field = s.timing.counter ∧
      (s.enterHoldover cause).timing.counter = s.timing.counter + 1 ∧
      ((∀ e ∈ s.waiting.entries, e.due ≠ s.timing.counter) →
        (s.enterHoldover cause).timing.ref = .holdover ∧
        (s.enterHoldover cause).timing.held = (s.timing.period1 + s.timing.period2) / 2 ∧
        (s.enterHoldover cause).timing.heldInUse = true ∧
        (s.enterHoldover cause).timing.fieldPeriod = (s.enterHoldover cause).timing.held ∧
        (s.enterHoldover cause).timing.silent = s.timing.silent ∧
        (s.enterHoldover cause).reports =
          s.laneDownPosts (s.reports.post .refLost 0 (holdoverDetail cause) s.timing.field)) := by
  rw [s.enterHoldover_starts cause h]
  obtain ⟨hfield, hcounter, -⟩ := State.startField_numbers
    ({ s with timing := s.timing.enterHoldover }.postCondition .refLost 0 (holdoverDetail cause))
  refine ⟨hfield, hcounter, fun hd => ?_⟩
  rw [(State.startField_timing_of_none_due _ (by exact hd)).1, (State.startField_watched _ (by exact hd)).2.1]
  exact ⟨rfl, rfl, rfl, rfl, rfl, rfl⟩

/-! ### A reference field start, by the reference state -/

section
variable {s : State} (period : Nat)

theorem State.referenceStart_searching (h : s.timing.ref = .absent ∨ s.timing.ref = .holdover) (correct : Bool) :
    s.referenceStart correct period =
      { s with timing := s.timing.enterLocking (decide (s.timing.ref = .holdover)) } := by
  rcases h with h | h <;> simp only [State.referenceStart, h] <;> rfl

theorem State.referenceStart_locking_incorrect (h : s.timing.ref = .locking) :
    s.referenceStart false period = { s with timing := { s.timing with good := 0 } } := by
  simp only [State.referenceStart, h]; rfl

theorem State.referenceStart_locking_first (h : s.timing.ref = .locking) (hg : s.timing.good = 0) :
    s.referenceStart true period =
      { s with timing := { s.timing.recordPeriod period with good := 1 } } := by
  simp only [State.referenceStart, h, hg]; rfl

theorem State.referenceStart_locking_second (h : s.timing.ref = .locking) (hg : s.timing.good = 1) :
    s.referenceStart true period =
      { s with timing := { s.timing.recordPeriod period with good := 2 } }.lockAtStart := by
  simp only [State.referenceStart, h, hg]; rfl

/-- The state in which a reference field start in LOCKED is followed: the wrong-field count judged (R6). -/
theorem State.referenceStart_locked_followed (h : s.timing.ref = .locked) {correct : Bool}
    (hc : correct = true ∨ s.timing.wrong = 0) :
    ∃ u : State, s.referenceStart correct period = u.followStart ∧ u = { s with timing := u.timing } ∧
      u.timing =
        { s.timing with
          period1 := u.timing.period1, period2 := u.timing.period2
          wrong := if correct then 0 else 1 } := by
  cases correct with
  | true =>
    refine ⟨{ s with timing := { s.timing.recordPeriod period with wrong := 0 } }, ?_, rfl, rfl⟩
    simp only [State.referenceStart, h, if_true]
  | false =>
    have hw : s.timing.wrong = 0 := hc.resolve_left (by decide)
    refine ⟨{ s with timing := { s.timing with wrong := 1 } }, ?_, rfl, rfl⟩
    simp only [State.referenceStart, h, hw]
    rfl

/-- A second incorrect reference field in LOCKED (R6). -/
theorem State.referenceStart_locked_lost (h : s.timing.ref = .locked) (hw : s.timing.wrong = 1) :
    s.referenceStart false period =
      { s with timing := { s.timing with wrong := 2 } }.enterHoldover .incorrectFields := by
  simp only [State.referenceStart, h, hw]; rfl

end

/-- A start that comes too early for the aligned field start is not followed in the search (R5). -/
theorem State.followStart_early {s : State} (ha : s.timing.aligning = true)
    (h : 2 * s.timing.sinceField < nominalTicks s.timing.format s.timing.parity) : s.followStart = s := by
  have hm : s.timing.mayAlign = false := decide_eq_false (Nat.not_le.2 h)
  simp only [State.followStart, ha, hm]; rfl

theorem State.followStart_aligned {s : State} (ha : s.timing.aligning = true)
    (h : nominalTicks s.timing.format s.timing.parity ≤ 2 * s.timing.sinceField) :
    s.followStart = s.alignedStart := by
  have hm : s.timing.mayAlign = true := decide_eq_true h
  simp only [State.followStart, ha, hm]; rfl

theorem State.followStart_outside {s : State} (ha : s.timing.aligning = false) :
    s.followStart = s.startField := by
  simp only [State.followStart, ha]; rfl

theorem State.lockAtStart_early {s : State}
    (h : 2 * s.timing.sinceField < nominalTicks s.timing.format s.timing.parity) :
    s.lockAtStart = { s with timing := s.timing.enterLocked } :=
  if_neg fun hm => Nat.not_le.2 h (of_decide_eq_true hm)

/-- LOCKED entered at a start that may be the aligned field start: it is, and the search is over (R5). -/
theorem State.lockAtStart_starts {s : State}
    (h : nominalTicks s.timing.format s.timing.parity ≤ 2 * s.timing.sinceField) :
    s.lockAtStart.timing.field = s.timing.counter ∧ s.lockAtStart.timing.counter = s.timing.counter + 1 ∧
      ((∀ e ∈ s.waiting.entries, e.due ≠ s.timing.counter) →
        s.lockAtStart.timing.ref = .locked ∧ s.lockAtStart.timing.aligning = false ∧
        s.lockAtStart.timing.wrong = 0 ∧ s.lockAtStart.timing.heldInUse = false ∧
        (s.timing.format = .interlaced1080 → s.lockAtStart.timing.parity = s.timing.refParity ∧
          s.lockAtStart.timing.nextParity = !s.timing.refParity)) := by
  have e : s.lockAtStart = State.alignedStart { s with timing := s.timing.enterLocked } :=
    if_pos (decide_eq_true h)
  rw [e]
  obtain ⟨hfield, hcounter, hwrong⟩ := State.alignedStart_numbers { s with timing := s.timing.enterLocked }
  refine ⟨hfield, hcounter, fun hd => ?_⟩
  obtain ⟨h1, h2, h3, h4⟩ := State.alignedStart_of_none_due { s with timing := s.timing.enterLocked } hd
  exact ⟨h1, h2, hwrong, h3, h4⟩

/-- Settles O6: a rejected pulse by `fieldPulse_rejected`, an accepted one by the reference state. -/
theorem referenceStartEntersLocking : Obligations.ReferenceStartEntersLocking := by
  intro ticks lines opens s
  refine ⟨fun hs hearly => congrArg _ (s.fieldPulse_rejected ticks lines opens hs hearly), fun hacc href => ?_⟩
  obtain ⟨correct, -, heq⟩ := s.fieldPulse_accepted ticks lines opens hacc
  refine ⟨s.fieldPulse ticks lines opens, rfl, ?_⟩
  rw [heq, State.referenceStart_searching _ (by exact href)]
  exact ⟨rfl, rfl, rfl, rfl, rfl, rfl, rfl, rfl, rfl, rfl, rfl, rfl, rfl, rfl, rfl, rfl⟩

/-- Settles O7: the reference field that the pulse ends is judged, and the second correct one enters LOCKED,
at a start that may be the aligned one by the aligned field start. -/
theorem lockingJudgesReferenceFields : Obligations.LockingJudgesReferenceFields := by
  intro ticks lines opens s correct href hacc hcorrect
  obtain ⟨judged, hjudged, heq⟩ := s.fieldPulse_accepted ticks lines opens hacc
  have hj : judged = true ↔ correct := hjudged.trans hcorrect.symm
  refine ⟨s.fieldPulse ticks lines opens, rfl, fun hc => ?_, fun hc hg => ?_, fun hc hg he => ?_,
    fun hc hg ha => ?_⟩
  · rw [heq, Bool.eq_false_iff.2 (mt hj.1 hc), State.referenceStart_locking_incorrect _ (by exact href)]
    exact ⟨rfl, href, rfl, rfl, rfl⟩
  · rw [heq, hj.2 hc, State.referenceStart_locking_first _ (by exact href) (by exact hg)]
    exact ⟨rfl, href, rfl, rfl, rfl⟩
  · rw [heq, hj.2 hc, State.referenceStart_locking_second _ (by exact href) (by exact hg),
      State.lockAtStart_early (by exact he)]
    exact ⟨rfl, rfl, rfl, rfl, rfl, rfl⟩
  · rw [heq, hj.2 hc, State.referenceStart_locking_second _ (by exact href) (by exact hg)]
    obtain ⟨hfield, hcounter, hnone⟩ := State.lockAtStart_starts
      (s := { s with
        timing := { (s.timing.atPulse ticks opens).recordPeriod (s.timing.sinceRef + ticks) with good := 2 } })
      (by exact ha)
    refine ⟨hfield, hcounter, fun hd => ?_⟩
    obtain ⟨h1, h2, h3, -, h5⟩ := hnone hd
    exact ⟨h1, h2, h3, h5⟩

/-- Settles O8: a correct reference field, and the first incorrect one, is followed by the state of the search;
the second incorrect one enters HOLDOVER by the held period. -/
theorem lockedFollowsTheReference : Obligations.LockedFollowsTheReference := by
  intro ticks lines opens s correct href hacc hcorrect
  obtain ⟨judged, hjudged, heq⟩ := s.fieldPulse_accepted ticks lines opens hacc
  have hj : judged = true ↔ correct := hjudged.trans hcorrect.symm
  have hf : judged = false ↔ ¬correct := by rw [← hj, Bool.not_eq_true]
  have followed : correct ∨ s.timing.wrong = 0 → ∃ u : State,
      s.fieldPulse ticks lines opens = u.followStart ∧ u = { s with timing := u.timing } ∧
      u.timing =
        { s.timing.atPulse ticks opens with
          period1 := u.timing.period1, period2 := u.timing.period2
          wrong := if judged then 0 else 1 } := fun hc =>
    heq ▸ State.referenceStart_locked_followed (s := { s with timing := s.timing.atPulse ticks opens }) _ href
      (hc.imp hj.2 id)
  refine ⟨s.fieldPulse ticks lines opens, rfl, fun hc ha => ?_, fun hc hw ha => ?_, fun hc ha he => ?_,
    fun hc ha he => ?_, fun hc hw he => ?_, fun hc hw he => ?_⟩
  · obtain ⟨u, e, -, ht⟩ := followed (.inl hc)
    rw [e, State.followStart_outside (by rw [ht]; exact ha)]
    obtain ⟨hfield, hcounter, -, -, hwrong, -⟩ := u.startField_numbers
    rw [hfield, hcounter, hwrong, ht, hj.2 hc]
    exact ⟨rfl, rfl, rfl⟩
  · obtain ⟨u, e, -, ht⟩ := followed (.inr hw)
    rw [e, State.followStart_outside (by rw [ht]; exact ha)]
    obtain ⟨hfield, hcounter, -, -, hwrong, -⟩ := u.startField_numbers
    rw [hfield, hcounter, hwrong, ht, hf.2 hc]
    exact ⟨rfl, rfl, rfl⟩
  · obtain ⟨u, e, hu, ht⟩ := followed hc
    rw [e, State.followStart_early (by rw [ht]; exact ha) (by rw [ht]; exact he)]
    refine ⟨hu, ?_⟩
    rw [ht]
    exact ⟨href, ha, fun hc => if_pos (hj.2 hc), fun hc => if_neg (Bool.eq_false_iff.1 (hf.2 hc)), rfl, rfl⟩
  · obtain ⟨u, e, hu, ht⟩ := followed hc
    rw [e, State.followStart_aligned (by rw [ht]; exact ha) (by rw [ht]; exact he)]
    obtain ⟨hfield, hcounter, hwrong⟩ := u.alignedStart_numbers
    rw [hfield, hcounter, hwrong]
    refine ⟨by rw [ht]; rfl, by rw [ht]; rfl, ?_, ?_, fun hd => ?_⟩
    · rw [ht]; exact fun hc => if_pos (hj.2 hc)
    · rw [ht]; exact fun hc => if_neg (Bool.eq_false_iff.1 (hf.2 hc))
    · obtain ⟨hr, hal, -, hp⟩ := u.alignedStart_of_none_due (by rw [hu, ht]; exact hd)
      rw [ht] at hr hp
      exact ⟨hr.trans href, hal, hp⟩
  · rw [heq, hf.2 hc, State.referenceStart_locked_lost _ (by exact href) (by exact hw),
      State.enterHoldover_waits _ _ (by exact he)]
    exact ⟨rfl, rfl, rfl, rfl, rfl, rfl, rfl, rfl⟩
  · rw [heq, hf.2 hc, State.referenceStart_locked_lost _ (by exact href) (by exact hw)]
    obtain ⟨hfield, hcounter, hnone⟩ := State.enterHoldover_passed
      { s with timing := { s.timing.atPulse ticks opens with wrong := 2 } } .incorrectFields (by exact he)
    refine ⟨hfield, hcounter, fun hd => ?_⟩
    obtain ⟨h1, h2, h3, h4, -, h6⟩ := hnone hd
    exact ⟨h1, h2, h3, h4, h6⟩

/-- Settles O9: silence by the reference state. -/
theorem silenceActsByTheReferenceState : Obligations.SilenceActsByTheReferenceState := by
  intro s
  refine ⟨s.silence, rfl, fun hs => if_pos hs, fun hs => ⟨fun href => ?_, fun href => ?_, ?_⟩⟩
  · rcases href with href | href <;> simp only [State.silence, hs, href] <;>
      exact ⟨rfl, rfl, href, rfl, rfl, rfl⟩
  · simp only [State.silence, hs, href]
    exact ⟨rfl, rfl, rfl, rfl, rfl, rfl⟩
  · rintro now rfl href
    have e : s.silence =
        State.enterHoldover
          { s with
            timing :=
              { s.timing.advance
                  (2 * nominalTicks s.timing.format s.timing.refParity - s.timing.sinceRef) with
                silent := true } }
          .silence := by
      simp only [State.silence, hs, href]; rfl
    rw [e]
    refine ⟨fun hw => ?_, fun hp => ?_⟩
    · rw [State.enterHoldover_waits _ _ (by exact hw)]
      exact ⟨rfl, rfl, rfl, rfl, rfl, rfl⟩
    · obtain ⟨hfield, hcounter, hnone⟩ := State.enterHoldover_passed
        { s with
          timing :=
            { s.timing.advance
                (2 * nominalTicks s.timing.format s.timing.refParity - s.timing.sinceRef) with
              silent := true } }
        .silence (by exact hp)
      refine ⟨hfield, hcounter, fun hd => ?_⟩
      obtain ⟨h1, h2, h3, h4, h5, h6⟩ := hnone hd
      exact ⟨h5, h1, h2, h3, h4, h6⟩

/-- The row ENTER_HOLDOVER in LOCKED (R6, log 4). -/
def State.lostBy (s : State) : HoldoverCause → State
  | .silence => { s with timing := { s.timing with silent := true } }
  | .incorrectFields => { s with timing := { s.timing with wrong := 2 } }

theorem exec_enterHoldover_locked {s : State} (cause : HoldoverCause) (h : s.timing.ref = .locked) :
    exec (.enterHoldover cause) s = .next ((s.lostBy cause).enterHoldover cause) := by
  cases cause <;> simp only [exec, execEnterHoldover, h] <;> rfl

/-- Settles O10: each row by the reference state and by whether the start comes at once. -/
theorem enterLockedAndEnterHoldover : Obligations.EnterLockedAndEnterHoldover := by
  refine ⟨fun s => ⟨_, rfl, fun h => if_neg h, fun h hw => ?_, fun h hs h0 ha => ?_⟩, fun cause s => ?_⟩
  · rw [if_pos h]
    split
    · rename_i hs
      have he : 2 * s.timing.sinceField < nominalTicks s.timing.format s.timing.parity := by
        rcases hw with hw | hw | hw
        · exact absurd (hw.symm.trans hs.1) (by decide)
        · exact absurd hs.2 hw
        · exact hw
      rw [State.lockAtStart_early he]
      rfl
    · rfl
  · rw [if_pos h, if_pos ⟨hs, h0⟩]
    obtain ⟨hfield, hcounter, hnone⟩ := State.lockAtStart_starts ha
    refine ⟨hfield, hcounter, fun hd => ?_⟩
    obtain ⟨h1, h2, h3, h4, h5⟩ := hnone hd
    exact ⟨h1, h3, h2, h4, h5⟩
  · by_cases hl : s.timing.ref = .locked
    · refine ⟨_, exec_enterHoldover_locked cause hl, fun h => absurd hl h, fun _ hw => ?_, fun _ hp => ?_⟩
      · rw [State.enterHoldover_waits _ _ (by cases cause <;> exact hw)]
        cases cause <;> exact ⟨rfl, rfl, rfl, rfl, rfl⟩
      · obtain ⟨hfield, hcounter, hnone⟩ := (s.lostBy cause).enterHoldover_passed cause (by cases cause <;> exact hp)
        refine ⟨hfield.trans (by cases cause <;> rfl), hcounter.trans (by cases cause <;> rfl), fun hd => ?_⟩
        obtain ⟨h1, h2, h3, h4, -, h6⟩ := hnone (by cases cause <;> exact hd)
        exact ⟨h1, h2.trans (by cases cause <;> rfl), h3, h4, h6.trans (by cases cause <;> rfl)⟩
    · refine ⟨s, ?_, fun _ => rfl, fun h => absurd h hl, fun h => absurd h hl⟩
      simp only [exec, execEnterHoldover, if_neg hl]

end Sys2Proof.Machine
end

section
/-!
RESULTS. The output field start: what it takes (R1, R67, R69, R163), the release of the due entries one at a time
(R34, R35, R38), and the watch (R12).
-/

namespace Sys2Proof

/-- A command that leaves the Pending List alone at its delivery (R30, R38). -/
def Command.leavesList (c : Command) : Prop := c ≠ .engineReset ∧ c.atArrival = false

end Sys2Proof

namespace Sys2Proof.Machine

open Sys2Proof

/-! ### What a field start takes -/

/-- The rows whose moment is a fixed time of the field in progress move the clock to it (R3, R5, R6, log 5). -/
theorem exec_expires {s : State} {c : Instr}
    (h : c = .outputFieldStart ∧ s.timing.ref ≠ .locked ∨
      c = .alignmentSearchTimeout ∧ s.timing.ref = .locked ∧ s.timing.aligning = true) :
    exec c s = .next (State.startField
      { s with
        timing :=
          s.timing.advance
            ((if c = .outputFieldStart then s.timing.fieldPeriod
              else 3 * nominalTicks s.timing.format s.timing.parity / 2) - s.timing.sinceField) }) := by
  rcases h with ⟨rfl, h⟩ | ⟨rfl, h⟩
  · simp only [exec, execOutputFieldStart, State.periodExpires, if_neg h, if_true]
  · simp only [exec, execAlignmentSearchTimeout, State.searchTimeout, if_pos h, reduceCtorEq, if_false]

/-- With the staged request applied, admissible deliveries leave the bypass and its request (R29, R69). -/
theorem State.startField_bypass (s : State) (h : s.entriesAdmissible) :
    s.startField.matrix.staged = none ∧
      s.startField.matrix.bypass = s.matrix.staged.getD s.matrix.bypass := by
  refine (State.startField_keeps
    (P := fun t => t.entriesAdmissible ∧ t.matrix.staged = none ∧
      t.matrix.bypass = s.matrix.staged.getD s.matrix.bypass) s ?_ ?_ ?_
    (fun _ h => h) (fun _ h => h) (fun _ h => h) (fun _ h => h) (fun _ h => h)).2
  · refine ⟨State.entriesAdmissible.sublist h (by simp), ?_⟩
    simp only [State.applyBypass_matrix, State.watchLanes_matrix, State.beginField_matrix, Matrix.applyBypass]
    cases hs : s.matrix.staged with
    | none => exact ⟨hs, rfl⟩
    | some r => exact ⟨rfl, rfl⟩
  · intro t e rest ⟨ha, hs, hb⟩ he _
    obtain ⟨h1, h2⟩ := State.deliver_bypass { t with waiting := t.waiting.removeHead } e.tag e.command (ha.head he).2
    exact ⟨ha.removeHead.deliver _ _, h2.trans hs, h1.trans hb⟩
  · intro t e ⟨ha, hs, hb⟩
    have f := t.stepEngine_only e
    exact ⟨ha.sublist (by rw [f.waiting]), f.staged.trans hs, f.bypass.trans hb⟩

/-- Settles O11: the two rows by the field start they raise, and in the other states by no effect. -/
theorem fieldStartTakesNumberAndParity : Obligations.FieldStartTakesNumberAndParity := by
  intro s
  refine ⟨fun c hc => ⟨_, exec_expires hc, ?_⟩, fun h => congrArg _ (if_pos h), fun h => congrArg _ (if_neg h)⟩
  generalize hticks : (if c = .outputFieldStart then s.timing.fieldPeriod
    else 3 * nominalTicks s.timing.format s.timing.parity / 2) - s.timing.sinceField = ticks
  obtain ⟨hfield, hcounter, hstarted, hsince, -, -, -, hpackets, htest, hpresented⟩ :=
    State.startField_numbers { s with timing := s.timing.advance ticks }
  refine ⟨hfield, hcounter, hstarted, hsince, hpresented, hpackets, htest, rfl, rfl,
    State.startField_bypass { s with timing := s.timing.advance ticks }, fun hd => ?_⟩
  obtain ⟨ht, hw⟩ := State.startField_timing_of_none_due { s with timing := s.timing.advance ticks } hd
  rw [ht, hw]
  refine ⟨rfl, rfl, rfl, rfl, rfl, ?_, rfl, rfl, rfl, rfl⟩
  rintro lasts rfl
  rw [hticks]
  rfl

/-! ### The release, one entry at a time -/

theorem PendingList.removeHead_eq (w : PendingList) :
    w.removeHead = ⟨w.entries.tail, w.hold && decide (32 < w.entries.tail.length)⟩ := by
  have h1 := PendingList.holdAfterRemoval_entries { w with entries := w.entries.tail }
  have h2 := PendingList.holdAfterRemoval_hold { w with entries := w.entries.tail }
  exact congrArg₂ PendingList.mk h1 h2

theorem State.deliverEntry_eq (s : State) (e : Entry) :
    s.deliverEntry e = { s with waiting := s.waiting.removeHead }.deliver e.tag e.command := by
  rw [PendingList.removeHead_eq]; rfl

theorem State.deliverEntry_field (s : State) (e : Entry) : (s.deliverEntry e).timing.field = s.timing.field := by
  rw [State.deliverEntry_eq]
  exact (State.deliver_numbers _ _ _).2

/-- One delivery of the release leaves the list's tail, with its hold flag re-evaluated (R34, R35). -/
theorem State.deliverEntry_waiting (s : State) (e : Entry) (h : e.command.leavesList) :
    (s.deliverEntry e).waiting =
      ⟨s.waiting.entries.tail, s.waiting.hold && decide (32 < s.waiting.entries.tail.length)⟩ :=
  State.deliver_waiting _ _ _ h.1 h.2

/-- One turn of the release: the due head is delivered (R35). -/
theorem State.release_succ (fuel : Nat) {s : State} {e : Entry} {rest : List Entry}
    (he : s.waiting.entries = e :: rest) (hd : e.due = s.timing.field) :
    State.release (fuel + 1) s = State.release fuel (s.deliverEntry e) := by
  rw [State.release, he, s.deliverEntry_eq]
  exact if_pos hd

/-- The release of due entries at the front of the list is the deliveries one after another (R35). -/
theorem State.release_prefix (l rest : List Entry) (fuel : Nat) (s : State)
    (hs : s.waiting.entries = l ++ rest) (hd : ∀ e ∈ l, e.due = s.timing.field)
    (hl : ∀ e ∈ l, e.command.leavesList) :
    State.release (l.length + fuel) s = State.release fuel (l.foldl State.deliverEntry s) ∧
      (l.foldl State.deliverEntry s).timing.field = s.timing.field ∧
      (l.foldl State.deliverEntry s).waiting =
        ⟨rest, s.waiting.hold && (l.isEmpty || decide (32 < rest.length))⟩ := by
  induction l generalizing s with
  | nil =>
    refine ⟨by simp, rfl, ?_⟩
    simp only [List.nil_append] at hs
    simp [← hs]
  | cons e l ih =>
    have hw := s.deliverEntry_waiting e (hl e List.mem_cons_self)
    have hf := s.deliverEntry_field e
    rw [hs, List.cons_append, List.tail_cons] at hw
    obtain ⟨h1, h2, h3⟩ := ih (s.deliverEntry e) (by rw [hw])
      (fun x hx => (hd x (List.mem_cons_of_mem _ hx)).trans hf.symm)
      (fun x hx => hl x (List.mem_cons_of_mem _ hx))
    refine ⟨?_, h2.trans hf, h3.trans ?_⟩
    · rw [List.length_cons, show l.length + 1 + fuel = (l.length + fuel) + 1 by omega,
        State.release_succ _ hs (hd e List.mem_cons_self)]
      exact h1
    · rw [hw]
      refine congrArg _ ?_
      cases l with
      | nil => simp
      | cons x l =>
        have : 32 < rest.length → 32 < (x :: l ++ rest).length := by simp; omega
        cases s.waiting.hold <;> simp
        omega

theorem State.release_nil (fuel : Nat) {s : State} (h : s.waiting.entries = []) : State.release fuel s = s :=
  State.release_of_none_due fuel s (by rw [h]; exact nofun)

/-- In a list in order of due field the entries due at the next field stand at the front (R33). -/
theorem orderedFrom.due_prefix {n : FieldNo} {l : List Entry} (h : orderedFrom n l) :
    l = l.filter (fun e => e.due == n) ++ l.filter (fun e => e.due != n) := by
  obtain ⟨-, -, h⟩ := h
  induction l with
  | nil => rfl
  | cons e l ih =>
    obtain ⟨he, hl⟩ := List.pairwise_cons.1 h
    by_cases hn : e.due = n
    · rw [List.filter_cons_of_pos (by simpa using hn), List.filter_cons_of_neg (by simpa using hn), List.cons_append,
        ← ih hl]
    · have hlate : ∀ x ∈ l, x.due ≠ n := fun x hx hxn => by
        have hle := he x hx
        rw [ahead_eq_zero.2 hxn, Nat.le_zero] at hle
        exact hn (ahead_eq_zero.1 hle)
      rw [List.filter_cons_of_neg (by simpa using hn), List.filter_cons_of_pos (by simpa using hn),
        List.filter_eq_nil_iff.2 (by simpa using hlate), List.nil_append,
        List.filter_eq_self.2 (by simpa using hlate)]

/-- What a row that raises an output field start finishes, once the due entries are released (log 13). -/
theorem State.startField_eq (s : State) :
    s.startField = s.beginField.watchLanes.applyBypass.releaseDue.finishField := rfl

theorem State.finishField_waiting (s : State) : s.finishField.waiting = s.waiting :=
  (State.stepEngines_only s).waiting

/-- The state in which the release begins: the field has begun, the lanes are watched and the bypass applied. -/
def State.begun (s : State) : State := s.beginField.watchLanes.applyBypass

/-- What stands when the release begins (log 13). -/
theorem State.begun_keeps (s : State) :
    s.begun.timing.field = s.timing.counter ∧ s.begun.waiting = s.waiting ∧ s.begun.tables = s.tables ∧
      s.begun.engines = s.engines ∧ s.begun.keyers = s.keyers ∧ s.begun.ftb = s.ftb ∧ s.begun.mon = s.mon ∧
      s.begun.checker = s.checker ∧ s.begun.matrix.buses = s.matrix.buses ∧
      s.begun.generators = { s.generators with test := 1 } ∧
      s.begun.matrix.exchange1 = s.matrix.exchange1 ∧ s.begun.matrix.exchange2 = s.matrix.exchange2 := by
  have hf := congrArg State.ftb s.beginField.watchLanes_frame
  have hm := congrArg State.mon s.beginField.watchLanes_frame
  have hb : ∀ m : Matrix, m.applyBypass.buses = m.buses ∧ m.applyBypass.exchange1 = m.exchange1 ∧
      m.applyBypass.exchange2 = m.exchange2 := fun m => by
    unfold Matrix.applyBypass
    split <;> exact ⟨rfl, rfl, rfl⟩
  simp only [State.begun, State.applyBypass_timing, State.applyBypass_waiting, State.applyBypass_tables,
    State.applyBypass_engines, State.applyBypass_keyers, State.applyBypass_ftb, State.applyBypass_mon,
    State.applyBypass_checker, State.applyBypass_matrix, State.applyBypass_generators, State.watchLanes_timing,
    State.watchLanes_waiting, State.watchLanes_tables, State.watchLanes_engines, State.watchLanes_keyers,
    State.watchLanes_checker, State.watchLanes_matrix, State.watchLanes_generators, (hb _).1, (hb _).2]
  exact ⟨rfl, rfl, rfl, rfl, rfl, hf, hm, rfl, rfl, rfl, rfl, rfl⟩

/-- Settles O12: in an ordered list the due entries stand at the front, and their release is the deliveries
one after another; an ENGINE RESET among them empties the list. -/
theorem fieldStartReleasesTheDueEntries : Obligations.FieldStartReleasesTheDueEntries := by
  rintro i s due hi ho ha rfl
  obtain ⟨u, hexec, hu, hcounter, -, -⟩ := State.startsField_exec i s hi
  obtain ⟨hfield, hwaiting, htables, hengines, hkeyers, hftb, hmon, hchecker, hbuses, hgen, -, -⟩ := u.begun_keeps
  have huw : u.waiting = s.waiting := by rw [hu]
  refine ⟨u.begun, u.startField, hexec, hfield.trans hcounter, hwaiting.trans huw, htables.trans (by rw [hu]),
    hengines.trans (by rw [hu]), hkeyers.trans (by rw [hu]), hftb.trans (by rw [hu]), hmon.trans (by rw [hu]),
    hchecker.trans (by rw [hu]), hbuses.trans (by rw [hu]), by rw [hgen, hu], by rw [hgen, hu], ?_⟩
  rw [u.startField_eq, ← State.begun]
  rw [huw] at hwaiting
  rw [hcounter] at hfield
  generalize u.begun = b at *
  have hsplit := orderedFrom.due_prefix ho
  have hlen := congrArg List.length hsplit
  rw [List.length_append] at hlen
  generalize hrest : s.waiting.entries.filter (fun e => e.due != s.timing.counter) = rest at *
  have hdue : ∀ e ∈ s.waiting.entries.filter (fun e => e.due == s.timing.counter), e.due = b.timing.field :=
    fun e he => by simpa [hfield] using (List.mem_filter.1 he).2
  have hlist : ∀ e ∈ s.waiting.entries.filter (fun e => e.due == s.timing.counter), e.command ≠ .engineReset →
      e.command.leavesList := fun e he hr => ⟨hr, (ha e (List.mem_of_mem_filter he)).2⟩
  have hnone : ∀ e ∈ rest, e.due ≠ s.timing.counter := fun e he => by
    rw [← hrest] at he
    simpa using (List.mem_filter.1 he).2
  generalize s.waiting.entries.filter (fun e => e.due == s.timing.counter) = due at *
  refine ⟨fun hno => ?_, ?_⟩
  · obtain ⟨h1, h2, h3⟩ := State.release_prefix due rest rest.length b (by rw [hwaiting]; exact hsplit) hdue
      fun e he => hlist e he (hno e he)
    have e1 : b.releaseDue = due.foldl State.deliverEntry b := by
      rw [State.releaseDue, hwaiting, hlen, h1]
      refine State.release_of_none_due _ _ fun e he => ?_
      rw [h3] at he
      rw [h2, hfield]
      exact hnone e he
    rw [e1, State.finishField_waiting, h3, hwaiting]
    exact ⟨rfl, rfl, rfl⟩
  · rintro before after reset rfl hreset hbefore
    obtain ⟨h1, h2, h3⟩ := State.release_prefix before (reset :: after ++ rest) (after.length + 1 + rest.length) b
      (by rw [hwaiting, hsplit]; simp) (fun e he => hdue e (List.mem_append_left _ he))
      fun e he => hlist e (List.mem_append_left _ he) (hbefore e he)
    have hw : (State.deliverEntry (before.foldl State.deliverEntry b) reset).waiting = ⟨[], false⟩ := by
      unfold State.deliverEntry
      rw [hreset]
      rfl
    have e1 : b.releaseDue = (before ++ [reset]).foldl State.deliverEntry b := by
      rw [State.releaseDue, hwaiting, hlen,
        show (before ++ reset :: after).length + rest.length = before.length + (after.length + 1 + rest.length) by
          simp; omega, h1, List.foldl_append, List.foldl_cons, List.foldl_nil,
        show after.length + 1 + rest.length = (after.length + rest.length) + 1 by omega,
        State.release_succ (rest := after ++ rest) _ (by rw [h3]; rfl)
          (by rw [h2]; exact hdue reset (List.mem_append_right _ List.mem_cons_self))]
      exact State.release_nil _ (by rw [hw])
    rw [e1, State.finishField_waiting, List.foldl_append, List.foldl_cons, List.foldl_nil, hw]
    exact ⟨rfl, rfl⟩

/-- A lane record after the watch, by what the lane saw of the field just ended (R12). -/
theorem Lane.watched_eq (l : Lane) :
    l.watched = { l with missed := if l.state = .down then l.missed else if l.seen then 0 else l.missed + 1 } := by
  unfold Lane.watched
  split
  · rfl
  · split <;> rfl

/-- The turn of the field and the delivery decision (R9, R11, R13). -/
theorem Lane.turnField_decide (l : Lane) (p : Parity) :
    (l.turnField p).decide =
      { l with
        seen := false, matchedCurrent := l.matchedNext, matchedNext := none
        pictureCurrent := l.pictureNext, pictureNext := []
        target := if l.target = .next then .current else .past
        openParity := if l.target = .next then p else l.openParity
        decision := match l.matchedNext with | some m => m | none => ⟨l.state, false⟩ } := by
  cases ht : l.target <;> cases hm : l.matchedNext <;> simp [Lane.turnField, Lane.decide, ht, hm]

/-- The same of a lane that the watch brings to DOWN (R12). -/
theorem Lane.turnField_goDown_decide (l : Lane) (k : Nat) (p : Parity) :
    ({ l with missed := k }.turnField p).goDown.decide =
      { l with
        seen := false, matchedCurrent := l.matchedNext, matchedNext := none
        pictureCurrent := l.pictureNext, pictureNext := []
        target := if l.target = .next then .current else .past
        openParity := if l.target = .next then p else l.openParity
        decision := match l.matchedNext with | some m => m | none => ⟨.down, false⟩
        state := .down, missed := 0, matchCount := 0, slip := false, mismatch := false, bad := 0 } := by
  cases hm : l.matchedNext <;> simp [Lane.turnField, Lane.goDown, Lane.decide] <;>
    cases l.target <;> rfl

/-- Settles O15: the watch said once, on the state in which the row raises its field start. -/
theorem fieldStartWatchesTheLanes : Obligations.FieldStartWatchesTheLanes := by
  intro i s hi hd
  obtain ⟨u, hexec, hu, hcounter, -, hlost⟩ := State.startsField_exec i s hi
  have hdu : ∀ e ∈ u.waiting.entries, e.due ≠ u.timing.counter := by rw [hcounter, hu]; exact hd
  obtain ⟨hlanes, hreports, hreceiver⟩ := u.startField_watched hdu
  have htiming := (u.startField_timing_of_none_due hdu).1
  have hposts : ∀ r, u.laneDownPosts r = s.laneDownPosts r := fun r => by
    simp only [State.laneDownPosts, hcounter]
    rw [hu]; rfl
  have hlane : ∀ n, u.lane n = s.lane n := fun n => by rw [hu]; rfl
  have hrf : u.startField.timing.ref = u.timing.ref := by rw [htiming]; rfl
  refine ⟨u.startField, hexec, ?_, fun h => ?_, fun hl hh => ?_, ?_⟩
  · rw [hreceiver, State.receptionAfter, State.receptionAfter, show u.receiver = s.receiver by rw [hu]]
  · rw [hreports, hposts, hlost.1 (hrf ▸ h)]
  · obtain ⟨cause, hc, hp⟩ := hlost.2 hl (hrf ▸ hh)
    exact ⟨cause, hc, by rw [hreports, hposts, hp]⟩
  · rintro n l turned hn rfl rfl
    have hp : u.startField.timing.parity = u.timing.nextParity := by rw [htiming]; rfl
    have hln := hlanes n hn
    rw [hlane, ← hp] at hln
    generalize u.startField = t at *
    generalize s.lane n = l at *
    have hs : (t.lane n).state = (l.watchedOut t.timing.parity).state := by rw [hln]; rfl
    rw [hs, hln]
    refine ⟨fun hdown => ?_, fun hup hseen => ?_, fun hup hseen h0 => ?_, fun hup hseen h1 => ?_⟩
    · have hm : l.misses = false := by simp [Lane.misses, hdown]
      have hw : l.watched = l := if_pos hdown
      simp only [Lane.watchedOut, hm, hw]
      exact Lane.turnField_decide l _
    · have hm : l.misses = false := by simp [Lane.misses, hseen]
      simp only [Lane.watchedOut, hm, Lane.watched_eq, if_neg hup, hseen, if_true]
      exact Lane.turnField_decide { l with missed := 0 } _
    · have hm : l.misses = false := by simp [Lane.misses, h0]
      simp only [Lane.watchedOut, hm, Lane.watched_eq, if_neg hup, hseen, h0]
      exact Lane.turnField_decide { l with missed := 1 } _
    · have hm : l.misses = true := by simp [Lane.misses, hup, hseen]; omega
      simp only [Lane.watchedOut, hm, Lane.watched_eq, if_neg hup, hseen, if_true]
      exact Lane.turnField_goDown_decide _ _ _

end Sys2Proof.Machine
end

section
/-!
RESULTS. The Lane Receivers: the judgement of a lane field start by the lane's state (R9 to R15), and the received
lines (R10, R16).
-/

namespace Sys2Proof.Machine

open Sys2Proof

/-! ### The judgement (R12 to R15) -/

section
variable (l : Lane) (f : Format) (d : Int) (again : Bool) (t : Timing) (elapsed : Nat)

theorem Lane.judgeSeek_wrongLength (h : l.lengthError f ≠ 0) : l.judgeSeek f d = l.wrongLength f := if_pos h

theorem Lane.judgeSeek_first (h : l.lengthError f = 0) (hc : l.matchCount = 0 ∨ l.candidate ≠ d) :
    l.judgeSeek f d = l.qualifyFirst d := by
  rw [Lane.judgeSeek, if_neg (not_not.2 h), if_pos hc]

theorem Lane.judgeSeek_inside (h : l.lengthError f = 0) (hm : l.matchCount ≠ 0) (hc : l.candidate = d)
    (hw : d.natAbs ≤ l.settings.window) : l.judgeSeek f d = l.enterTimed d := by
  rw [Lane.judgeSeek, if_neg (not_not.2 h), if_neg (not_or.2 ⟨hm, not_not.2 hc⟩), if_pos hw]

theorem Lane.judgeSeek_outside (h : l.lengthError f = 0) (hm : l.matchCount ≠ 0) (hc : l.candidate = d)
    (hw : l.settings.window < d.natAbs) : l.judgeSeek f d = l.enterUntimed d := by
  rw [Lane.judgeSeek, if_neg (not_not.2 h), if_neg (not_or.2 ⟨hm, not_not.2 hc⟩), if_neg (Nat.not_le.2 hw)]

/-- What the judgement in SEEK leaves, and that only TIMED lets the lane field be delivered (R11, R13). -/
theorem Lane.judgeSeek_keeps (hs : l.state = .seek) :
    (l.judgeSeek f d).own = Decidable.decide ((l.judgeSeek f d).lane.state = .timed) ∧
      (l.judgeSeek f d).lane.slip = l.slip ∧
      ((l.judgeSeek f d).lane.state ≠ .timed → (l.judgeSeek f d).lane.lateness = l.lateness) := by
  have hn : l.state ≠ .timed := by simp [hs]
  unfold Lane.judgeSeek
  split
  · exact ⟨(decide_eq_false hn).symm, rfl, fun _ => rfl⟩
  · split
    · exact ⟨(decide_eq_false hn).symm, rfl, fun _ => rfl⟩
    · split
      · exact ⟨rfl, rfl, fun h => absurd rfl h⟩
      · exact ⟨rfl, rfl, fun _ => rfl⟩

theorem Lane.judgeUntimed_wrongLength (h : l.lengthError f ≠ 0) : l.judgeUntimed f d = l.wrongLength f := if_pos h

theorem Lane.judgeUntimed_outside (h : l.lengthError f = 0) (hw : l.settings.window < d.natAbs) :
    l.judgeUntimed f d = ⟨{ l with matchCount := 0, mismatch := false }, [], false⟩ := by
  rw [Lane.judgeUntimed, if_neg (not_not.2 h), if_pos (Nat.not_le.2 hw)]

theorem Lane.judgeUntimed_first (h : l.lengthError f = 0) (hw : d.natAbs ≤ l.settings.window)
    (hc : l.matchCount = 0 ∨ l.candidate ≠ d) : l.judgeUntimed f d = l.qualifyFirst d := by
  rw [Lane.judgeUntimed, if_neg (not_not.2 h), if_neg (not_not.2 hw), if_pos hc]

theorem Lane.judgeUntimed_second (h : l.lengthError f = 0) (hw : d.natAbs ≤ l.settings.window)
    (hm : l.matchCount ≠ 0) (hc : l.candidate = d) : l.judgeUntimed f d = l.enterTimed d := by
  rw [Lane.judgeUntimed, if_neg (not_not.2 h), if_neg (not_not.2 hw), if_neg (not_or.2 ⟨hm, not_not.2 hc⟩)]

/-- What the judgement in UNTIMED leaves, and that only TIMED lets the lane field be delivered (R11, R15). -/
theorem Lane.judgeUntimed_keeps (hs : l.state = .untimed) :
    (l.judgeUntimed f d).own = Decidable.decide ((l.judgeUntimed f d).lane.state = .timed) ∧
      (l.judgeUntimed f d).lane.slip = l.slip ∧
      ((l.judgeUntimed f d).lane.state ≠ .timed →
        (l.judgeUntimed f d).lane.lateness = l.lateness ∧ (l.judgeUntimed f d).lane.delay = l.delay) := by
  have hn : l.state ≠ .timed := by simp [hs]
  unfold Lane.judgeUntimed
  split
  · exact ⟨(decide_eq_false hn).symm, rfl, fun _ => ⟨rfl, rfl⟩⟩
  · split
    · exact ⟨(decide_eq_false hn).symm, rfl, fun _ => ⟨rfl, rfl⟩⟩
    · split
      · exact ⟨(decide_eq_false hn).symm, rfl, fun _ => ⟨rfl, rfl⟩⟩
      · exact ⟨rfl, rfl, fun h => absurd rfl h⟩

/-- The first row of R14's table: only the delay and the pending slip change. -/
theorem Lane.applySlip_eq :
    l.applySlip =
      { l with delay := if l.slip then (16 - l.lateness).toNat else l.delay, slip := false } := by
  unfold Lane.applySlip
  split
  · rfl
  · next h => rw [← Bool.eq_false_of_not_eq_true h]

theorem Lane.judgeTimedRows_outside (hw : l.settings.window < d.natAbs) :
    l.judgeTimedRows f d again = l.enterUntimed d := if_pos (Nat.not_le.2 hw)

theorem Lane.judgeTimedRows_again (hw : d.natAbs ≤ l.settings.window) :
    l.judgeTimedRows f d true =
      ⟨{ l with state := .seek, matchCount := 0 }, [(.laneFormat, l.lengthError f)], false⟩ := by
  rw [Lane.judgeTimedRows, if_neg (not_not.2 hw), if_pos rfl]

theorem Lane.judgeTimedRows_stays (hw : d.natAbs ≤ l.settings.window) (hd : d = l.lateness) :
    l.judgeTimedRows f d false = ⟨l, [], true⟩ := by
  rw [Lane.judgeTimedRows, if_neg (not_not.2 hw), if_neg Bool.false_ne_true, if_pos hd]

theorem Lane.judgeTimedRows_slips (hw : d.natAbs ≤ l.settings.window) (hd : d ≠ l.lateness) :
    l.judgeTimedRows f d false =
      ⟨{ l with lateness := d, slip := true }, [(.laneSlip, d - l.lateness)], false⟩ := by
  rw [Lane.judgeTimedRows, if_neg (not_not.2 hw), if_neg Bool.false_ne_true, if_neg hd]

/-- What the rows of R14's table leave, and that only TIMED with no slip lets the lane field be delivered (R11). -/
theorem Lane.judgeTimedRows_keeps (hs : l.state = .timed) (hslip : l.slip = false) :
    (l.judgeTimedRows f d again).own =
        (Decidable.decide ((l.judgeTimedRows f d again).lane.state = .timed) && !(l.judgeTimedRows f d again).lane.slip) ∧
      (l.judgeTimedRows f d again).lane.candidate = l.candidate ∧
      (l.judgeTimedRows f d again).lane.mismatch = l.mismatch ∧
      (l.judgeTimedRows f d again).lane.delay = l.delay := by
  unfold Lane.judgeTimedRows
  split
  · exact ⟨rfl, rfl, rfl, rfl⟩
  · split
    · exact ⟨rfl, rfl, rfl, rfl⟩
    · split
      · exact ⟨by simp [hs, hslip], rfl, rfl, rfl⟩
      · exact ⟨by simp, rfl, rfl, rfl⟩

/-- A judgement touches none of what a lane field start keeps of the record (R9, R12, R18). -/
theorem Lane.judge_keeps :
    (l.judge f d again).lane =
      { l with
        state := (l.judge f d again).lane.state, lateness := (l.judge f d again).lane.lateness
        candidate := (l.judge f d again).lane.candidate, matchCount := (l.judge f d again).lane.matchCount
        delay := (l.judge f d again).lane.delay, slip := (l.judge f d again).lane.slip
        mismatch := (l.judge f d again).lane.mismatch } := by
  have hrows : ∀ m : Lane, m = { l with delay := m.delay, slip := m.slip } →
      (m.judgeTimedRows f d again).lane =
        { l with
          state := (m.judgeTimedRows f d again).lane.state
          lateness := (m.judgeTimedRows f d again).lane.lateness
          candidate := (m.judgeTimedRows f d again).lane.candidate
          matchCount := (m.judgeTimedRows f d again).lane.matchCount
          delay := (m.judgeTimedRows f d again).lane.delay, slip := (m.judgeTimedRows f d again).lane.slip
          mismatch := (m.judgeTimedRows f d again).lane.mismatch } := by
    intro m hm
    rw [hm]
    unfold Lane.judgeTimedRows
    split
    · rfl
    · split
      · rfl
      · split <;> rfl
  unfold Lane.judge
  split
  · rfl
  · split
    · rfl
    · unfold Lane.judgeSeek
      split
      · rfl
      · split
        · rfl
        · split <;> rfl
  · exact hrows _ (l.applySlip_eq ▸ rfl)
  · unfold Lane.judgeUntimed
    split
    · rfl
    · split
      · rfl
      · split <;> rfl

theorem Lane.begins_afterStart : l.begins (l.afterStart t elapsed).lane := by
  obtain ⟨-, -, -, -, -, -, -, -, hbad, hmissed, hsettings, hlimit, hswap, hlines, hunjudged, hseen⟩ :=
    l.afterStart_fields t elapsed
  have hj : (l.judgedAt t elapsed).lane.settings = l.settings ∧ (l.judgedAt t elapsed).lane.missed = l.missed := by
    rw [Lane.judgedAt, Lane.judge_keeps]
    exact ⟨rfl, rfl⟩
  rw [hj.1] at hsettings hlimit hswap
  exact ⟨hbad, hlines, hseen, hunjudged, hlimit, hswap, hsettings, hmissed.trans hj.2⟩

/-- A match that may be delivered is there, or every match there may not (R9, R11). -/
theorem hasOwn_iff (m : Option LaneMatch) : hasOwn m = true ↔ ∃ x, m = some x ∧ x.own = true := by
  cases m <;> simp [hasOwn]

theorem hasOwn_eq_false_iff (m : Option LaneMatch) : hasOwn m = false ↔ ∀ x, m = some x → x.own = false := by
  cases m <;> simp [hasOwn]

/-- A lane field start matched with the output field in progress (R9, R11). -/
theorem Lane.afterStart_current (h : matchesNext (nominalLines t.format t.parity) elapsed = false) :
    (l.afterStart t elapsed).lane =
      ((l.judgedAt t elapsed).lane.opened
        ⟨(l.judgedAt t elapsed).lane.state, (l.judgedAt t elapsed).own && !t.presented⟩ false t.parity).decide := by
  simp only [Lane.afterStart, Lane.judgedAt, h, Bool.and_false, Bool.false_or, Bool.false_eq_true, if_false]

/-- A lane field start matched with the next output field (R9, R11). -/
theorem Lane.afterStart_next (h : matchesNext (nominalLines t.format t.parity) elapsed = true) :
    (l.afterStart t elapsed).lane =
      if t.presented then
        (l.judgedAt t elapsed).lane.opened ⟨(l.judgedAt t elapsed).lane.state, (l.judgedAt t elapsed).own⟩ true
          t.nextParity
      else
        ((l.judgedAt t elapsed).lane.opened ⟨(l.judgedAt t elapsed).lane.state, (l.judgedAt t elapsed).own⟩ true
          t.nextParity).decide := by
  simp only [Lane.afterStart, Lane.judgedAt, h, Bool.and_true, Bool.true_or, if_true]

/-- The match and the delivery of a lane field start (R9, R11, log 15). -/
theorem Lane.matchedBy_afterStart :
    l.matchedBy (l.afterStart t elapsed).lane t elapsed (l.judgedAt t elapsed).own := by
  have hj : (l.judgedAt t elapsed).lane = _ := l.judge_keeps t.format _ _
  have hcurrent : (l.judgedAt t elapsed).lane.matchedCurrent = l.matchedCurrent := by rw [hj]
  have hnext : (l.judgedAt t elapsed).lane.matchedNext = l.matchedNext := by rw [hj]
  have hdecision : (l.judgedAt t elapsed).lane.decision = l.decision := by rw [hj]
  have hpictures : (l.judgedAt t elapsed).lane.pictureCurrent = l.pictureCurrent ∧
      (l.judgedAt t elapsed).lane.pictureNext = l.pictureNext := by rw [hj]; exact ⟨rfl, rfl⟩
  have hsome : ∀ {m : Option LaneMatch}, (∃ x, m = some x ∧ x.own = true) → ¬hasOwn m = false :=
    fun h => by simp [(hasOwn_iff _).2 h]
  have hnone : ∀ {m : Option LaneMatch}, (∀ x, m = some x → x.own = false) → ¬hasOwn m = true :=
    fun h => by simp [(hasOwn_eq_false_iff _).2 h]
  unfold Lane.matchedBy
  rw [← hcurrent, ← hnext, ← hdecision, ← hpictures.1, ← hpictures.2]
  refine ⟨fun h => ?_, fun h => ?_⟩
  · rw [l.afterStart_current t elapsed (by simp [matchesNext, h])]
    generalize l.judgedAt t elapsed = j at *
    cases hk : hasOwn j.lane.matchedCurrent with
    | true =>
      obtain ⟨x, hx, -⟩ := (hasOwn_iff _).1 hk
      simp only [Lane.opened, hk, if_true, Bool.false_eq_true, if_false]
      exact ⟨rfl, rfl, rfl, rfl, fun _ => ⟨rfl, rfl, rfl⟩, fun hn => absurd hk (hnone hn),
        by simp only [Lane.decide, hx, Option.getD_some]⟩
    | false =>
      simp only [Lane.opened, hk, Bool.false_eq_true, if_false]
      exact ⟨rfl, rfl, rfl, rfl, fun hy => absurd hk (hsome hy), fun _ => ⟨rfl, rfl, rfl⟩, rfl⟩
  · rw [l.afterStart_next t elapsed (by simp [matchesNext, h])]
    generalize l.judgedAt t elapsed = j at *
    cases hk : hasOwn j.lane.matchedNext with
    | true =>
      simp only [Lane.opened, hk, if_true]
      cases hp : t.presented
      · refine ⟨rfl, rfl, rfl, rfl, fun _ => ⟨rfl, rfl, rfl⟩, fun hn => absurd hk (hnone hn), nofun, fun _ => ?_⟩
        cases hm : j.lane.matchedCurrent <;> simp [Lane.decide]
      · exact ⟨rfl, rfl, rfl, rfl, fun _ => ⟨rfl, rfl, rfl⟩, fun hn => absurd hk (hnone hn), fun _ => rfl, nofun⟩
    | false =>
      simp only [Lane.opened, hk, Bool.false_eq_true, if_true, if_false]
      cases hp : t.presented
      · refine ⟨rfl, rfl, rfl, rfl, fun hy => absurd hk (hsome hy), fun _ => ⟨rfl, rfl, rfl⟩, nofun, fun _ => ?_⟩
        cases hm : j.lane.matchedCurrent <;> simp [Lane.decide]
      · exact ⟨rfl, rfl, rfl, rfl, fun hy => absurd hk (hsome hy), fun _ => ⟨rfl, rfl, rfl⟩, fun _ => rfl, nofun⟩

end

/-! ### A lane field start of a named lane (R9, R23) -/

theorem State.postConditions_reports (n : Nat) (ps : List (ConditionKind × Int)) (s : State) :
    (s.postConditions n ps).reports = ps.foldl (fun r p => r.post p.1 n p.2 s.timing.field) s.reports := by
  induction ps generalizing s with
  | nil => rfl
  | cons p ps ih => rw [State.postConditions, ih]; rfl

/-- What a lane field start leaves of its judgement in the lane and in the reports (R9 to R16). -/
theorem State.laneFieldStart_judged (s : State) {n : Nat} (hn : isLane n = true) (elapsed : Nat) {j : Judgement}
    (hj : (s.lane n).judgedAt s.timing elapsed = j) :
    ∃ t, exec (.laneFieldStart n elapsed) s = .next t ∧
      t = { s with lanes := t.lanes, receiver := t.receiver, reports := t.reports } ∧
      (∀ m, isLane m = true → m ≠ n → t.lane m = s.lane m) ∧
      (n ≠ 25 → t.receiver = s.receiver) ∧
      (n = 25 → t.receiver = { s.receptionAfter t n with taken := 0, dropped := 0 }) ∧
      (s.lane n).begins (t.lane n) ∧ (s.lane n).matchedBy (t.lane n) s.timing elapsed j.own ∧
      (t.lane n).state = j.lane.state ∧ (t.lane n).lateness = j.lane.lateness ∧
      (t.lane n).candidate = j.lane.candidate ∧ (t.lane n).matchCount = j.lane.matchCount ∧
      (t.lane n).delay = j.lane.delay ∧ (t.lane n).slip = j.lane.slip ∧
      (t.lane n).mismatch = j.lane.mismatch ∧
      t.reports = j.posts.foldl (fun r p => r.post p.1 n p.2 s.timing.field) s.reports := by
  subst hj
  obtain ⟨hframe, hlane, hothers, hreceiver, -, hreports⟩ := s.laneFieldStart_effect hn elapsed
  obtain ⟨hposts, hstate, hlate, hcandidate, hcount, hdelay, hslip, hmismatch, -⟩ :=
    (s.lane n).afterStart_fields s.timing elapsed
  rw [State.postConditions_reports, hposts] at hreports
  refine ⟨_, rfl, hframe, hothers, hreceiver, s.laneFieldStart_reception n elapsed hn, ?_⟩
  rw [hlane]
  exact ⟨(s.lane n).begins_afterStart _ _, (s.lane n).matchedBy_afterStart _ _, hstate, hlate, hcandidate, hcount,
    hdelay, hslip, hmismatch, hreports⟩

/-- Settles O16: a start from DOWN, and the first after a RESEEK, is judged as an opening one. -/
theorem openingLaneStartGoesToSeek : Obligations.OpeningLaneStartGoesToSeek := by
  intro n elapsed s hn hs
  have hj : (s.lane n).judgedAt s.timing elapsed = (s.lane n).judgeOpening := by
    unfold Lane.judgedAt Lane.judge
    rcases hs with hs | ⟨hs, hu⟩
    · rw [hs]
    · simp only [hs, hu, if_true]
  obtain ⟨t, hexec, hframe, hothers, hreceiver, hcontrol, hbegins, hmatched, hstate, -, -, hcount, hdelay, -,
    hmismatch, hreports⟩ := s.laneFieldStart_judged hn elapsed hj
  obtain ⟨hbad, hlines, hseen, hunjudged, hlimit, hswap, hsettings, -⟩ := id hbegins
  refine ⟨t, hexec, ?_, hstate, hcount, hmismatch, hbad, hlines, hunjudged, hseen, hdelay, hsettings, hlimit, hswap,
    hbegins, hmatched, hothers, hreceiver, fun h => ?_⟩
  · rw [hframe, hreports]; rfl
  · have hc : (t.lane 25).state = .seek := h ▸ hstate
    rw [hcontrol h, State.receptionAfter, if_pos (by simp [h, hc])]

/-- Settles O17: the four cases of R13, each by the judgement that it gets. -/
theorem seekJudgesTheLaneField : Obligations.SeekJudgesTheLaneField := by
  intro n elapsed s d err hn hs hu hd he
  have hj : (s.lane n).judgedAt s.timing elapsed = (s.lane n).judgeSeek s.timing.format d := by
    unfold Lane.judgedAt Lane.judge
    simp only [hs, hu, Bool.false_eq_true, if_false]
    rw [hd]; rfl
  have herr : (s.lane n).lengthError s.timing.format = err := he.symm
  obtain ⟨hown, hslips, hlates⟩ := (s.lane n).judgeSeek_keeps s.timing.format d hs
  obtain ⟨t, hexec, hframe, hothers, hreceiver, hcontrol, hbegins, hmatched, hstate, hlate, hcandidate, hcount, hdelay,
    hslip, hmismatch, hreports⟩ := s.laneFieldStart_judged hn elapsed hj
  rw [hown, ← hstate] at hmatched
  obtain ⟨hbad, -, -, -, -, -, hsettings, hmissed⟩ := id hbegins
  refine ⟨t, hexec, hframe, hothers, hreceiver, hcontrol, hsettings, hbad, hmissed, hbegins, hmatched,
    hslip.trans hslips, fun h => hlate.trans (hlates (hstate ▸ h)), fun h => ?_, fun h hc => ?_, fun h hm hc hw => ?_,
    fun h hm hc hw => ?_⟩
  · rw [Lane.judgeSeek_wrongLength _ _ _ (herr ▸ h)] at *
    refine ⟨hstate.trans hs, hcandidate, hcount, hmismatch, hdelay, ?_⟩
    rw [hreports, Lane.wrongLength, herr]
    cases (s.lane n).mismatch <;> rfl
  · rw [Lane.judgeSeek_first _ _ _ (herr.trans h) hc] at *
    exact ⟨hstate.trans hs, hcount, hcandidate, hmismatch, hdelay, hreports⟩
  · rw [Lane.judgeSeek_inside _ _ _ (herr.trans h) hm hc hw] at *
    exact ⟨hstate, hcount, hcandidate.trans hc, hmismatch, hlate, hdelay, hreports⟩
  · rw [Lane.judgeSeek_outside _ _ _ (herr.trans h) hm hc hw] at *
    exact ⟨hstate, hcount, hcandidate.trans hc, hmismatch, hdelay, hreports⟩

/-- Settles O18: the pending slip first, then the rows of R14's table, each by the judgement that it gets. -/
theorem timedLaneStaysSlipsOrLeaves : Obligations.TimedLaneStaysSlipsOrLeaves := by
  intro n elapsed s d err again hn hs hd he hagain
  obtain ⟨b, hb, hj⟩ : ∃ b : Bool, (again ↔ b = true) ∧
      (s.lane n).judgedAt s.timing elapsed = (s.lane n).applySlip.judgeTimedRows s.timing.format d b := by
    refine ⟨(if matchesNext (nominalLines s.timing.format s.timing.parity) elapsed then (s.lane n).matchedNext
      else (s.lane n).matchedCurrent).isSome, hagain.trans ?_, ?_⟩
    · by_cases h : 2 * elapsed < nominalLines s.timing.format s.timing.parity <;>
        simp [matchesNext, h, Option.isSome_iff_ne_none]
    · unfold Lane.judgedAt Lane.judge
      simp only [hs]
      rw [hd]; rfl
  have herr : (s.lane n).lengthError s.timing.format = err := he.symm
  obtain ⟨t, hexec, hframe, hothers, hreceiver, hcontrol, hbegins, hmatched, hstate, hlate, hcandidate, hcount, hdelay,
    hslip, hmismatch, hreports⟩ := s.laneFieldStart_judged hn elapsed hj
  generalize hl : (s.lane n).applySlip = l at *
  rw [Lane.applySlip_eq] at hl
  obtain ⟨hown, hcandidates, hmismatches, hdelays⟩ := l.judgeTimedRows_keeps s.timing.format d b (hl ▸ hs) (hl ▸ rfl)
  rw [hown, ← hstate, ← hslip] at hmatched
  have hw : l.settings = (s.lane n).settings ∧ l.lateness = (s.lane n).lateness := hl ▸ ⟨rfl, rfl⟩
  have hdelay' : l.delay = if (s.lane n).slip then (16 - (s.lane n).lateness).toNat else (s.lane n).delay := hl ▸ rfl
  refine ⟨t, hexec, hframe, hothers, hreceiver, hcontrol, hbegins.2.2.2.2.2.2.1, hbegins, hmatched,
    hcandidate.trans (hcandidates.trans (hl ▸ rfl)), hmismatch.trans (hmismatches.trans (hl ▸ rfl)),
    fun h => ?_, fun h => ?_, fun h => ?_, fun h ha => ?_, fun h ha hsame => ?_, fun h ha hne => ?_⟩
  · rw [hdelay, hdelays, hdelay', if_pos h]
  · rw [hdelay, hdelays, hdelay', if_neg (by simp [h])]
  · rw [Lane.judgeTimedRows_outside _ _ _ _ (hw.1 ▸ h)] at *
    exact ⟨hstate, hcount, hslip.trans (hl ▸ rfl), hlate.trans hw.2, hreports⟩
  · rw [hb.1 ha, Lane.judgeTimedRows_again _ _ _ (hw.1 ▸ h)] at *
    exact ⟨hstate, hcount, hslip.trans (hl ▸ rfl), hlate.trans hw.2, by rw [hreports, ← herr, ← hl]; rfl⟩
  · rw [Bool.eq_false_iff.2 (mt hb.2 ha), Lane.judgeTimedRows_stays _ _ _ (hw.1 ▸ h) (hsame.trans hw.2.symm)] at *
    exact ⟨hstate.trans (hl ▸ hs), hslip.trans (hl ▸ rfl), hlate.trans (hw.2.trans hsame.symm),
      hcount.trans (hl ▸ rfl), hreports⟩
  · rw [Bool.eq_false_iff.2 (mt hb.2 ha), Lane.judgeTimedRows_slips _ _ _ (hw.1 ▸ h) (hw.2 ▸ hne)] at *
    exact ⟨hstate.trans (hl ▸ hs), hslip, hlate, hcount.trans (hl ▸ rfl), by rw [hreports, ← hw.2]; rfl⟩

/-- Settles O19: the four cases of R15, each by the judgement that it gets. -/
theorem untimedLaneReturnsInsideTheWindow : Obligations.UntimedLaneReturnsInsideTheWindow := by
  intro n elapsed s d err hn hs hd he
  have hj : (s.lane n).judgedAt s.timing elapsed = (s.lane n).judgeUntimed s.timing.format d := by
    unfold Lane.judgedAt Lane.judge
    simp only [hs]
    rw [hd]; rfl
  have herr : (s.lane n).lengthError s.timing.format = err := he.symm
  obtain ⟨hown, hslips, hlates⟩ := (s.lane n).judgeUntimed_keeps s.timing.format d hs
  obtain ⟨t, hexec, hframe, hothers, hreceiver, hcontrol, hbegins, hmatched, hstate, hlate, hcandidate, hcount, hdelay,
    hslip, hmismatch, hreports⟩ := s.laneFieldStart_judged hn elapsed hj
  rw [hown, ← hstate] at hmatched
  refine ⟨t, hexec, hframe, hothers, hreceiver, hcontrol, hbegins.2.2.2.2.2.2.1, hbegins, hmatched, hslip.trans hslips,
    fun h => ?_, fun h => ?_, fun h hw => ?_, fun h hw hc => ?_, fun h hw hm hc => ?_⟩
  · obtain ⟨h1, h2⟩ := hlates (hstate ▸ h)
    exact ⟨hlate.trans h1, hdelay.trans h2⟩
  · rw [Lane.judgeUntimed_wrongLength _ _ _ (herr ▸ h)] at *
    refine ⟨hstate.trans hs, hcandidate, hcount, hmismatch, ?_⟩
    rw [hreports, Lane.wrongLength, herr]
    cases (s.lane n).mismatch <;> rfl
  · rw [Lane.judgeUntimed_outside _ _ _ (herr.trans h) hw] at *
    exact ⟨hstate.trans hs, hcount, hmismatch, hcandidate, hreports⟩
  · rw [Lane.judgeUntimed_first _ _ _ (herr.trans h) hw hc] at *
    exact ⟨hstate.trans hs, hcount, hcandidate, hmismatch, hreports⟩
  · rw [Lane.judgeUntimed_second _ _ _ (herr.trans h) hw hm hc] at *
    exact ⟨hstate, hcount, hcandidate.trans hc, hmismatch, hlate, hdelay, hreports⟩

end Sys2Proof.Machine
end

section
/-!
RESULTS. The received lines and the rows of the Lane Receivers (R10 to R12, R16), the value sets of R27, a panel
command taken at once (log 3), and the lane commands with SET FORMAT (R8, R18, R20).
-/

namespace Sys2Proof.Machine

open Sys2Proof

/-! ### Received lines (R10, R16) -/

/-- The exchange of Cb and Cr keeps the length, and acts on complete pixel pairs alone (R10, log 37). -/
theorem swapChroma_places (x : Line) (k : Nat) :
    (swapChroma x).length = x.length ∧
    (4 * k + 3 < x.length →
      (swapChroma x)[4 * k]? = x[4 * k + 2]? ∧ (swapChroma x)[4 * k + 1]? = x[4 * k + 1]? ∧
      (swapChroma x)[4 * k + 2]? = x[4 * k]? ∧ (swapChroma x)[4 * k + 3]? = x[4 * k + 3]?) ∧
    (x.length ≤ 4 * (k / 4) + 3 → (swapChroma x)[k]? = x[k]?) := by
  induction x using swapChroma.induct generalizing k with
  | case1 cb y cr y' rest ih =>
    refine ⟨by simp [swapChroma, (ih 0).1], fun h => ?_, fun h => ?_⟩
    · cases k with
      | zero => exact ⟨rfl, rfl, rfl, rfl⟩
      | succ k => exact (ih k).2.1 (by simp at h; omega)
    · obtain ⟨j, rfl⟩ : ∃ j, k = j + 4 := ⟨k - 4, by simp at h; omega⟩
      exact (ih j).2.2 (by simp at h; omega)
  | case2 x hx =>
    rw [swapChroma.eq_2 _ hx]
    refine ⟨rfl, fun h => ?_, fun _ => rfl⟩
    match x, hx with
    | cb :: y :: cr :: y' :: rest, hx => exact absurd rfl (hx cb y cr y' rest)
    | [_, _, _], _ | [_, _], _ | [_], _ | [], _ => simp at h

/-- A line in the alignment buffer: only the pictures change (R10). -/
theorem Lane.store_eq (l : Lane) (f : Format) (x : Line) :
    l.store f x =
      { l with
        pictureCurrent :=
          if l.stored = true ∧ l.lines < activeLines f ∧ l.target = .current then
            l.pictureCurrent ++ [if l.swapInForce then swapChroma x else x] else l.pictureCurrent
        pictureNext :=
          if l.stored = true ∧ l.lines < activeLines f ∧ l.target = .next then
            l.pictureNext ++ [if l.swapInForce then swapChroma x else x] else l.pictureNext } := by
  unfold Lane.store
  generalize (if l.swapInForce = true then swapChroma x else x) = line
  split
  · next h =>
    dsimp only
    split
    · next ht => rw [if_pos ⟨h.1, h.2, ht⟩, if_neg (by simp [ht])]
    · next ht => rw [if_neg (by simp [ht]), if_pos ⟨h.1, h.2, ht⟩]
    · next ht => rw [if_neg (by simp [ht]), if_neg (by simp [ht])]
  · next h => simp [← and_assoc, h]

/-- The lane record with a received line counted and, on a source lane, kept (R10, R16). -/
def Lane.received (l : Lane) (n : Nat) (f : Format) (x : Line) : Lane :=
  { (if n = laneC then l else l.store f x) with lines := l.lines + 1 }

theorem Lane.received_eq (l : Lane) (n : Nat) (f : Format) (x : Line) :
    l.received n f x =
      { l with
        lines := l.lines + 1, pictureCurrent := (l.received n f x).pictureCurrent
        pictureNext := (l.received n f x).pictureNext } := by
  unfold Lane.received
  split
  · rfl
  · rw [Lane.store_eq]

theorem Lane.received_keptLine (l : Lane) {n : Nat} (hn : n ≠ 25) (f : Format) (x : Line) :
    l.keptLine (l.received n f x) f x := by
  rintro line rfl
  rw [Lane.received, if_neg (show n ≠ laneC from hn), Lane.store_eq]
  exact ⟨rfl, rfl⟩

theorem Lane.received_control (l : Lane) (f : Format) (x : Line) :
    (l.received 25 f x).pictureCurrent = l.pictureCurrent ∧ (l.received 25 f x).pictureNext = l.pictureNext :=
  ⟨rfl, rfl⟩

section
variable (s : State) {n : Nat} (x : Line) (c : LinkWord)

/-- A received line that does not raise the bad-line count (R16). -/
theorem State.laneLine_uncounted (hn : isLane n = true) (hs : (s.lane n).state ≠ .down)
    (h : ¬(badLine s.timing.format x c = true ∧ (s.lane n).bad < (s.lane n).limitInForce)) :
    s.laneLine n x c = s.setLane n ((s.lane n).received n s.timing.format x) := by
  simp only [State.laneLine, if_pos (And.intro hn hs), if_neg h]; rfl

/-- A bad line below the limit (R16). -/
theorem State.laneLine_counted (hn : isLane n = true) (hs : (s.lane n).state ≠ .down)
    (hb : badLine s.timing.format x c = true) (h : (s.lane n).bad + 1 < (s.lane n).limitInForce) :
    s.laneLine n x c =
      s.setLane n { (s.lane n).received n s.timing.format x with bad := (s.lane n).bad + 1 } := by
  simp only [State.laneLine, if_pos (And.intro hn hs), if_pos (And.intro hb (Nat.lt_of_succ_lt h)), if_neg h.ne]
  rfl

/-- The bad line at which the count reaches the limit (R16). -/
theorem State.laneLine_reached (hn : isLane n = true) (hs : (s.lane n).state ≠ .down)
    (hb : badLine s.timing.format x c = true) (h : (s.lane n).bad + 1 = (s.lane n).limitInForce) :
    s.laneLine n x c =
      (s.setLane n
        { (s.lane n).received n s.timing.format x with
          state := .seek, matchCount := 0, slip := false, bad := (s.lane n).limitInForce }).postCondition
        .laneErrors n ((s.lane n).limitInForce : Int) := by
  simp only [State.laneLine, if_pos (And.intro hn hs), if_pos (And.intro hb (Nat.lt_of_succ_le h.le)), if_pos h,
    State.laneErrorsReached, State.lane_setLane_same _ hn]
  rw [State.setLane_setLane_down _ _ _ _ rfl, ← h]
  rfl

/-- A received line by what it does to the bad-line count (R16). -/
theorem State.laneLine_cases (hn : isLane n = true) (hs : (s.lane n).state ≠ .down) :
    ∃ b st mc sl r,
      s.laneLine n x c =
        { s.setLane n
            { (s.lane n).received n s.timing.format x with bad := b, state := st, matchCount := mc, slip := sl } with
          reports := r } ∧
      (¬(badLine s.timing.format x c = true ∧ (s.lane n).bad < (s.lane n).limitInForce) →
        b = (s.lane n).bad ∧ st = (s.lane n).state ∧ r = s.reports) ∧
      (badLine s.timing.format x c = true → (s.lane n).bad + 1 < (s.lane n).limitInForce →
        b = (s.lane n).bad + 1 ∧ st = (s.lane n).state ∧ r = s.reports) ∧
      (badLine s.timing.format x c = true → (s.lane n).bad + 1 = (s.lane n).limitInForce →
        b = (s.lane n).limitInForce ∧ st = .seek ∧ mc = 0 ∧ sl = false ∧
          r = s.reports.post .laneErrors n ((s.lane n).limitInForce : Int) s.timing.field) := by
  by_cases h : badLine s.timing.format x c = true ∧ (s.lane n).bad < (s.lane n).limitInForce
  · rcases Nat.lt_or_eq_of_le h.2 with hl | hl
    · refine ⟨_, (s.lane n).state, (s.lane n).matchCount, (s.lane n).slip, s.reports,
        (s.laneLine_counted x c hn hs h.1 hl).trans ?_, fun h' => absurd h h', fun _ _ => ⟨rfl, rfl, rfl⟩,
        fun _ h' => absurd h' hl.ne⟩
      rw [(s.lane n).received_eq]; rfl
    · exact ⟨_, _, _, _, _, s.laneLine_reached x c hn hs h.1 hl, fun h' => absurd h h', fun _ h' => absurd hl h'.ne,
        fun _ _ => ⟨rfl, rfl, rfl, rfl, rfl⟩⟩
  · refine ⟨(s.lane n).bad, (s.lane n).state, (s.lane n).matchCount, (s.lane n).slip, s.reports,
      (s.laneLine_uncounted x c hn hs h).trans ?_, fun _ => ⟨rfl, rfl, rfl⟩,
      fun hb hl => absurd ⟨hb, Nat.lt_of_succ_lt hl⟩ h, fun hb hl => absurd ⟨hb, Nat.lt_of_succ_le hl.le⟩ h⟩
    rw [(s.lane n).received_eq]; rfl

end

theorem badLine_iff (f : Format) (x : Line) (c : LinkWord) :
    badLine f x c = true ↔ x.length ≠ 2 * width f ∨ c ≠ checkWord x := by
  simp [badLine, lineLength]

/-- Settles O20: the exchange of Cb and Cr by places, then the line by what it does to the count. -/
theorem badLinesSendTheLaneToSeek : Obligations.BadLinesSendTheLaneToSeek := by
  refine ⟨swapChroma_places, fun n x c s hn => ⟨fun h => ?_, fun hs => ?_⟩⟩
  · simp only [exec, execLaneLine, State.laneLine]
    rw [if_neg (fun h' => h'.2 h)]
  refine ⟨s.laneLine n x c, rfl, ?_⟩
  rw [s.laneLine_reception n x c hn hs]
  obtain ⟨b, st, mc, sl, r, heq, hkept, hcounted, hreached⟩ := s.laneLine_cases x c hn hs
  have hlane : (s.laneLine n x c).lane n =
      { (s.lane n).received n s.timing.format x with bad := b, state := st, matchCount := mc, slip := sl } := by
    rw [heq]; exact s.lane_setLane_same hn _
  have hreports : (s.laneLine n x c).reports = r := by rw [heq]
  have hframe : s.laneLine n x c =
      { s with
        lanes := (s.laneLine n x c).lanes, receiver := (s.laneLine n x c).receiver
        reports := (s.laneLine n x c).reports } := by rw [heq]; rfl
  have hothers : ∀ m, isLane m = true → m ≠ n → (s.laneLine n x c).lane m = s.lane m := fun m hm h => by
    rw [heq]; exact s.lane_setLane_ne hn hm h.symm _
  refine ⟨s.laneLine_reception n x c hn hs ▸ hframe, hothers, rfl, ?_⟩
  rw [hlane, hreports, (s.lane n).received_eq]
  refine ⟨rfl, rfl, rfl, rfl, fun h => (s.lane n).received_keptLine h _ x, fun h => ?_, fun h => ?_, fun hb h => ?_,
    fun hb h => ?_⟩
  · subst h; exact (s.lane 25).received_control _ x
  · refine hkept fun hc => ?_
    rcases h with h | h
    · exact absurd h (by simpa only [badLine_iff, not_and_or] using hc.1)
    · exact absurd hc.2 (Nat.not_lt.2 h)
  · exact hcounted ((badLine_iff _ _ _).2 hb) h
  · exact hreached ((badLine_iff _ _ _).2 hb) h

/-! ### The other rows of the lanes (R11, R12, R16) -/

/-- A lane record replaced in a state that takes no packets (R24). -/
theorem State.setLane_down_effect (s : State) {n : Nat} (hn : isLane n = true) (l : Lane)
    (hl : l.state.takesPackets = false) :
    s.setLane n l = { s with lanes := (s.setLane n l).lanes, receiver := (s.setLane n l).receiver } ∧
      (∀ m, isLane m = true → m ≠ n → (s.setLane n l).lane m = s.lane m) ∧
      (s.setLane n l).receiver = (if n = 25 then { s.receiver with inReception := none } else s.receiver) ∧
      (s.setLane n l).lane n = l :=
  ⟨rfl, fun _ hm h => s.lane_setLane_ne hn hm h.symm l,
    by simp only [State.setLane, hl, and_true]; rfl, s.lane_setLane_same hn l⟩

/-- Settles O21: each row writes the lane record of its consequence and posts its condition. -/
theorem laneErrorsAndLaneDown : Obligations.LaneErrorsAndLaneDown := by
  refine fun n s hn => ⟨fun hd => ?_, fun hs => ⟨?_, ?_⟩⟩
  · simp only [exec, execLaneErrors, execLaneDown, if_neg (fun h : isLane n = true ∧ (s.lane n).state ≠ .down => h.2 hd),
      and_self]
  · refine ⟨_, rfl, ?_⟩
    rw [if_pos ⟨hn, hs⟩, State.laneErrorsReached, s.lane_setLane_same hn, State.setLane_setLane_down _ _ _ _ rfl]
    obtain ⟨hframe, hothers, hreceiver, hlane⟩ := s.setLane_down_effect hn
      { s.lane n with state := .seek, matchCount := 0, slip := false, bad := (s.lane n).limitInForce } rfl
    exact ⟨rfl, hothers, hreceiver, hlane, rfl⟩
  · refine ⟨_, rfl, ?_⟩
    rw [if_pos ⟨hn, hs⟩, State.laneToDown]
    obtain ⟨hframe, hothers, hreceiver, hlane⟩ := s.setLane_down_effect hn (s.lane n).goDown rfl
    exact ⟨rfl, hothers, hreceiver, hlane, rfl⟩

/-- Settles O22: the point is taken once, and each lane then decides. -/
theorem presentationPointMakesTheDecisions : Obligations.PresentationPointMakesTheDecisions := by
  refine fun s => ⟨s.presentationPoint, rfl, fun h => if_neg fun hp => ?_, fun h1 h2 => ?_⟩
  · simp [hp.1, hp.2] at h
  · rw [State.presentationPoint, if_pos ⟨h1, h2⟩]
    refine ⟨rfl, rfl, rfl, rfl, fun n hn => ?_⟩
    rw [State.lane_decideLanes _ hn, Lane.decide]
    change { s.lane n with decision := (s.lane n).matchedCurrent.getD ⟨(s.lane n).state, false⟩ } = _
    cases (s.lane n).matchedCurrent <;> rfl

/-! ### The value sets of R27 and a panel command taken at once (R26, R28, log 3) -/

theorem engineSet_inRange_iff (set : EngineSet) : (set != 0#5) = true ↔ ∃ e : EngineId, e.isIn set = true := by
  rw [bne_iff_ne]
  constructor
  · intro h
    by_contra hn
    simp only [not_exists, Bool.not_eq_true] at hn
    refine h (BitVec.eq_of_getLsbD_eq fun k hk => ?_)
    rw [BitVec.getLsbD_zero]
    match k, hk with
    | 0, _ => exact hn .me1
    | 1, _ => exact hn .me2
    | 2, _ => exact hn .dsk1
    | 3, _ => exact hn .dsk2
    | 4, _ => exact hn .ftb
  · rintro ⟨e, he⟩ rfl
    simp [EngineId.isIn] at he

theorem laneSet_inRange_iff (lanes : LaneSet) :
    lanes.inRange = true ↔
      (∃ n, lanes.getLsbD n = true) ∧ ∀ n, lanes.getLsbD n = true → 1 ≤ n ∧ n ≤ 25 := by
  have hne : lanes ≠ 0#32 ↔ ∃ n, lanes.getLsbD n = true := by
    constructor
    · intro h
      by_contra hn
      simp only [not_exists, Bool.not_eq_true] at hn
      exact h (BitVec.eq_of_getLsbD_eq fun k _ => by rw [hn k, BitVec.getLsbD_zero])
    · rintro ⟨n, hn⟩ rfl
      simp at hn
  have hall : (∀ n < 32, lanes.getLsbD n = true → 1 ≤ n ∧ n ≤ 25) ↔
      ∀ n, lanes.getLsbD n = true → 1 ≤ n ∧ n ≤ 25 :=
    ⟨fun h n hn => h n (BitVec.lt_of_getLsbD hn) hn, fun h n _ => h n⟩
  rw [LaneSet.inRange, Bool.and_eq_true, bne_iff_ne, hne, List.all_eq_true, ← hall]
  simp [imp_iff_not_or]

/-- The value sets of R27 are those that test 3 of R26 asks for. -/
theorem commandInRange_iff (c : Command) : c.inRange = true ↔ inValueSets c := by
  cases c with
  | take set => exact engineSet_inRange_iff set
  | cut set => exact engineSet_inRange_iff set
  | hold set => exact engineSet_inRange_iff set
  | resume set => exact engineSet_inRange_iff set
  | release set => exact engineSet_inRange_iff set
  | reseek lanes => exact laneSet_inRange_iff lanes
  | setMonitor point => cases point <;> simp [Command.inRange, inValueSets, MonPoint.inRange]
  | checkerStart point _ => cases point <;> simp [Command.inRange, inValueSets, CheckPoint.inRange]
  | setKey n k => cases hm : k.maskShape <;> simp [Command.inRange, inValueSets, hm, and_assoc]
  | bypass source => cases source <;> simp [Command.inRange, inValueSets]
  | _ => simp [Command.inRange, inValueSets, and_assoc, or_assoc]

/-- Test 4 of R26 (R60). -/
theorem commandLoops_iff (c : Command) :
    c.loops = true ↔
      ∃ bus source, c = .select bus source ∧
        ((bus ≤ 7 ∧ (source = 29 ∨ source = 30)) ∨ (8 ≤ bus ∧ source = 30)) := by
  cases c <;> simp [Command.loops]

/-- A command that passes the tests, taken at once (R28, log 3). -/
theorem State.command_passed (s : State) (tag : Tag) {c : Command} (hr : inValueSets c) (hl : c.loops = false) :
    s.command tag c = (s.noticeIf (c.clamp != c) tag c .clamped).deliver tag c.clamp := by
  rw [State.command, (commandInRange_iff c).2 hr, hl]; rfl

/-- A command within every range, taken at once (log 3). -/
theorem State.command_plain (s : State) (tag : Tag) {c : Command} (hr : inValueSets c) (hl : c.loops = false)
    (hc : c.clamp = c) : s.command tag c = s.deliver tag c := by
  rw [s.command_passed tag hr hl, hc, bne_self_eq_false]; rfl

/-- A row of a panel command that passes the tests and needs no clamping (log 3). -/
theorem exec_plain {i : Instr} {tag : Tag} {c : Command} (h : i.command? = some (tag, c)) (s : State)
    (hr : inValueSets c) (hl : c.loops = false) (hc : c.clamp = c) : exec i s = .next (s.deliver tag c) := by
  rw [exec_of_command h, s.command_plain tag hr hl hc]

/-- A row of a panel command that passes the tests, its CLAMPED posted exactly where `p` holds (R28, log 3). -/
theorem exec_clamped {i : Instr} {tag : Tag} {c : Command} (h : i.command? = some (tag, c)) (s : State)
    (hr : inValueSets c) (hl : c.loops = false) {p : Prop} [Decidable p] (hp : c.clamp ≠ c ↔ p) :
    exec i s =
      .next
        ({ s with
          reports :=
            if p then s.reports.notice ⟨tag, c.code, .clamped, c.subject⟩ s.timing.field else s.reports }.deliver tag
          c.clamp) := by
  rw [exec_of_command h, s.command_passed tag hr hl]
  by_cases hc : c.clamp ≠ c
  · rw [bne_iff_ne.2 hc, if_pos (hp.1 hc)]; rfl
  · rw [not_ne_iff.1 hc, bne_self_eq_false, if_neg (mt hp.2 hc)]; rfl

/-- Settles O32: the tests of R26 in order, then the clamping of R28. -/
theorem commandRowsAreValidatedAndClamped : Obligations.CommandRowsAreValidatedAndClamped := by
  intro i tag c s h
  rw [exec_of_command h]
  refine ⟨fun hr => ?_, ?_, fun hr hl hc => ?_, fun _ _ => rfl, fun _ _ _ => rfl, fun hr hc => ?_⟩
  · have hr' : c.inRange = false := Bool.eq_false_iff.2 fun h => hr ((commandInRange_iff c).1 h)
    rw [State.command, if_pos hr']; rfl
  · rintro bus source rfl hb hs hloop
    have hr : (Command.select bus source).inRange = true := (commandInRange_iff _).2 ⟨hb, hs⟩
    have hl : (Command.select bus source).loops = true := (commandLoops_iff _).2 ⟨bus, source, rfl, by omega⟩
    rw [State.command, if_neg (by simp [hr]), if_pos hl]; rfl
  · rw [s.command_plain tag hr (Bool.eq_false_iff.2 fun h => ?_) hc]
    obtain ⟨bus, source, rfl, hloop⟩ := (commandLoops_iff c).1 h
    have := hl bus source rfl
    omega
  · have hl : c.loops = false := by
      cases c
      case select => exact absurd rfl hc
      all_goals rfl
    rw [s.command_passed tag hr hl, bne_iff_ne.2 hc]; rfl

/-! ### SET LANE, RESEEK and SET FORMAT (R8, R18, R20) -/

/-- A lane record replaced in the state the lane is in: the Command Receiver stays (R24). -/
theorem State.setLane_of_sameState {s : State} (h : s.receiverWf) (n : Nat) {l : Lane}
    (hl : l.state = (s.lane n).state) : s.setLane n l = { s with lanes := (s.setLane n l).lanes } := by
  obtain ⟨-, -, hnone⟩ := h
  have hreceiver : (s.setLane n l).receiver = s.receiver := by
    simp only [State.setLane]
    split
    · next hc =>
      obtain ⟨rfl, hp⟩ := hc
      rw [← hnone (by rw [State.takesPackets, ← hl, hp])]
    · rfl
  calc s.setLane n l = { s with lanes := (s.setLane n l).lanes, receiver := (s.setLane n l).receiver } := rfl
    _ = _ := by rw [hreceiver]

/-- Settles O23: the settings written, and the named lanes sent to SEEK. -/
theorem setLaneAndReseek : Obligations.SetLaneAndReseek := by
  refine ⟨fun tag n l s hn hw h1 h15 => ?_, fun tag lanes s hne hin => ?_⟩
  · have hv : inValueSets (.setLane n l) := ⟨((isLane_iff n).1 hn).1, ((isLane_iff n).1 hn).2, h1, h15⟩
    have hclamped : (Command.setLane n l).clamp ≠ .setLane n l ↔ 16 < l.window := by
      cases l; simp [Command.clamp]
    rw [exec_clamped (c := .setLane n l) rfl s hv rfl hclamped]
    exact ⟨_, rfl, State.setLane_of_sameState (by exact hw) n rfl, rfl, State.lane_setLane_same _ hn _,
      fun m hm h => State.lane_setLane_ne _ hn hm h.symm _⟩
  · rw [exec_plain (c := .reseek lanes) rfl s ⟨hne, hin⟩ rfl rfl]
    refine ⟨_, rfl, rfl, fun n hn => ?_, rfl⟩
    have hl := s.lane_reseekLanes (fun n => lanes.getLsbD n) s.timing.presented hn
    refine ⟨fun h => ?_, fun h => ?_⟩
    · exact hl.trans (if_neg (by simp [h]))
    · rw [State.deliver, State.deliverReseek, hl, if_pos h]
      exact ⟨rfl, rfl, rfl, rfl, rfl, rfl, rfl, rfl, fun hp => by rw [hp]; rfl, fun hp => by rw [hp]; rfl, rfl, rfl, rfl⟩

theorem engines_allIdle_iff (s : State) : s.engines.allIdle = true ↔ ∀ e : EngineId, (s.engine e).state = .idle := by
  rw [Engines.allIdle, List.all_eq_true]
  refine ⟨fun h e => beq_iff_eq.1 (h e ?_), fun h e _ => beq_iff_eq.2 (h e)⟩
  cases e <;> decide

/-- Settles O24: the format changes only while every engine is IDLE. -/
theorem setFormatTakesEffectWhenAllIdle : Obligations.SetFormatTakesEffectWhenAllIdle := by
  intro tag f s
  rw [exec_plain (c := .setFormat f) rfl s trivial rfl rfl]
  refine ⟨_, rfl, ?_⟩
  rw [State.deliver, State.deliverSetFormat]
  refine ⟨fun ⟨e, he⟩ => ?_, fun h => ?_⟩
  · rw [if_neg (fun h => he ((engines_allIdle_iff s).1 h e))]; rfl
  · rw [if_pos ((engines_allIdle_iff s).2 h)]
    refine ⟨rfl, rfl, rfl, ?_, rfl, rfl, rfl, rfl, rfl, rfl, rfl, rfl, fun n hn => ?_⟩
    · cases f <;> rfl
    · rw [State.lane_decideLanes _ hn, State.lane_reseekLanes _ _ _ hn, if_pos rfl]
      exact ⟨rfl, rfl, rfl, rfl, rfl, rfl, rfl, rfl, rfl, rfl, rfl, rfl⟩

end Sys2Proof.Machine
end

section
/-!
RESULTS. The queue and the resets, the curve stage, and the commands that one block applies at once: loads and
COMMIT, SELECT, settings, generators, monitor, checker, conditions, PURGE and BYPASS (log 3).
-/

namespace Sys2Proof.Machine

open Sys2Proof

/-! ### The queue and the resets -/

/-- Settles O1: by the definition of a step. -/
theorem stepRunsTheFrontCommand : Obligations.StepRunsTheFrontCommand :=
  ⟨fun c rest s h => by rw [step, h], fun s h => by rw [step, h]⟩

theorem Tables.reset_asReset : Tables.reset.asReset := by
  have hcurve : ∀ {n i}, n ≤ 7 → i ≤ 32 → ∀ c, look (look Tables.reset.curves n c) i 0 = 32 * i := by
    intro n i hn hi c
    rw [Tables.reset, look_of_lt _ (Nat.lt_succ_of_le hn), Vector.getElem_replicate, look_of_lt _ (Nat.lt_succ_of_le hi)]
    simp [identityCurve]
  refine ⟨fun n hn r => ⟨rfl, ?_⟩, fun n i hn hi c => ⟨hcurve hn hi c, hcurve hn hi c⟩, fun n hn r => ⟨rfl, ?_⟩, rfl, rfl, rfl⟩
  · interval_cases n <;> rfl
  · rw [Tables.reset, look_of_lt _ (Nat.lt_succ_of_le hn)]
    simp [resetSources, Bool.decide_or, Bool.decide_and, beq_eq_decide]

theorem Engines.reset_asReset : Engines.reset.asReset :=
  ⟨fun e => by cases e <;> exact ⟨rfl, rfl, rfl, rfl, rfl, rfl, rfl⟩,
    fun e he => by cases e <;> first | exact ⟨rfl, rfl, rfl⟩ | cases he⟩

/-- The reset state block by block, whatever stands in the queue (R7). -/
theorem State.resetPart_asReset (s : State) (cause : ResetCause) : (s.resetPart cause).asReset cause := by
  refine ⟨⟨rfl, rfl, rfl, rfl, rfl, rfl, rfl, rfl, rfl, rfl, rfl⟩, fun n hn => ?_, rfl, rfl, Tables.reset_asReset,
    fun b hb => ?_, rfl, rfl, rfl, rfl, Engines.reset_asReset, fun n hn => ?_, rfl, rfl, rfl, rfl, rfl, rfl, rfl⟩
  · have hl : (s.resetPart cause).lane n = Lane.reset := by
      obtain ⟨h1, h25⟩ := (isLane_iff n).1 hn
      rw [State.lane, State.resetPart, State.resetBy, look_of_lt _ (by omega), Vector.getElem_replicate]
    rw [hl]
    exact ⟨rfl, rfl, rfl, rfl, rfl, rfl, rfl, rfl, rfl, rfl⟩
  · rw [State.bus, State.resetPart, State.resetBy, Matrix.reset, look_of_lt _ (Nat.lt_succ_of_le hb),
      Vector.getElem_replicate]
  · rw [State.keyer, State.resetPart, State.resetBy, look_of_lt _ (Nat.lt_succ_of_le hn), Vector.getElem_replicate]
    rfl

/-- Settles O3: every reset is the reset state, but for the queue and the count of free values. -/
theorem powerAndPinResetSetEveryRegister : Obligations.PowerAndPinResetSetEveryRegister :=
  ⟨fun s => ⟨_, rfl, s.resetPart_asReset .power, rfl⟩, fun s => ⟨_, rfl, s.resetPart_asReset .pin, rfl⟩,
    State.reset.resetPart_asReset .power⟩

/-- Settles O4: both resets write the whole blocks; an ENGINE RESET the Pending List alone of these. -/
theorem resetsEmptyThePendingList : Obligations.ResetsEmptyThePendingList := by
  refine ⟨fun s c hc => ?_, fun s tag => ⟨_, rfl, rfl, rfl, rfl, rfl⟩⟩
  rcases hc with rfl | rfl
  · exact ⟨_, rfl, rfl, rfl, rfl, rfl, rfl, rfl, rfl⟩
  · exact ⟨_, rfl, rfl, rfl, rfl, rfl, rfl, rfl, rfl⟩

/-- Settles O5: the delivery of an ENGINE RESET, engine by engine. -/
theorem engineResetAbandonsEveryRun : Obligations.EngineResetAbandonsEveryRun := by
  refine fun tag s => ⟨_, rfl, rfl, fun e => ?_, rfl, rfl⟩
  cases e <;> exact ⟨rfl, rfl, rfl, rfl, rfl, rfl, rfl, fun _ => rfl⟩

/-! ### The Pending List and the matrix (R29, R30, R61) -/

/-- Settles O31: each acts on the list or on the staged request. -/
theorem purgeAndBypassActAtOnce : Obligations.PurgeAndBypassActAtOnce := by
  refine ⟨fun tag s => ?_, fun tag named s => ?_, fun tag source s h => ?_⟩
  · rw [exec_plain (c := .purgeAll) rfl s trivial rfl rfl]; rfl
  · rw [exec_plain (c := .purgeTag named) rfl s trivial rfl rfl]
    refine ⟨_, rfl, rfl, PendingList.holdAfterRemoval_entries _, ?_⟩
    exact (PendingList.holdAfterRemoval_hold _).trans (by
      rw [State.deliver, State.purgeTag, PendingList.holdAfterRemoval_entries])
  · rw [exec_plain (c := .bypass source) rfl s h rfl rfl]; rfl

/-- Settles O34: a SELECT that passes the tests of R26, by the ACTIVE record of its source. -/
theorem selectSetsTheBus : Obligations.SelectSetsTheBus := by
  intro tag b n s hb h28 h29
  have hl : (Command.select b n).loops = false := Bool.eq_false_iff.2 fun h => by
    obtain ⟨bus, source, heq, hloop⟩ := (commandLoops_iff _).1 h
    cases heq
    omega
  rw [exec_plain (c := .select b n) rfl s ⟨hb, by omega⟩ hl rfl, State.deliver, State.deliverSelect]
  refine ⟨fun h => ⟨_, rfl, ?_⟩, fun h => ?_⟩
  · rw [if_pos h]
    refine ⟨rfl, rfl, fun c => ?_⟩
    rw [State.bus_setBus]
    by_cases hc : c = b
    · subst hc; rw [if_pos ⟨rfl, by omega⟩, if_pos rfl]
    · rw [if_neg (fun h => hc h.1.symm), if_neg hc]
  · rw [if_neg (by simp [h])]; rfl

/-! ### Loads and COMMIT (R43, R45, R48, R51) -/

/-- The points of a curve after the points of a LOAD CURVE are written in turn (R45). -/
theorem look_writePoints (points : List Nat) (c : Curve) (first i : Nat) (hi : i ≤ 32) :
    look (writePoints c first points) i 0 =
      if first ≤ i ∧ i < first + points.length then points.getD (i - first) 0 else look c i 0 := by
  induction points generalizing c first with
  | nil => rw [if_neg (by simp)]; rfl
  | cons p points ih =>
    rw [writePoints, ih, look_put]
    by_cases h : first = i
    · subst h
      rw [if_neg (by omega), if_pos ⟨rfl, by omega⟩, if_pos (by simp)]
      simp
    · by_cases h' : first + 1 ≤ i ∧ i < first + 1 + points.length
      · rw [if_pos h', if_pos (by simp; omega), show i - first = i - (first + 1) + 1 by omega, List.getD_cons_succ]
      · rw [if_neg h', if_neg (fun h' => h h'.1), if_neg (by simp; omega)]

theorem map_min_eq_self {points : List Nat} (h : ∀ p ∈ points, p ≤ 1024) : points.map (min · 1024) = points :=
  (List.map_congr_left fun p hp => Nat.min_eq_left (h p hp)).trans (List.map_id _)

/-- Settles O33: the three loads and COMMIT, each a write to the tables. -/
theorem loadsAndCommit : Obligations.LoadsAndCommit := by
  refine ⟨⟨fun tag n r s hn h1 h2 h3 h4 => ?_, fun tag n r s hn => ?_, fun tag n first points s hn hp hlen hle => ?_⟩,
    fun tag kinds s h => ?_⟩
  · rw [exec_plain (c := .loadShape n r) rfl s ⟨hn, h1, h2, h3, h4⟩ rfl rfl]
    refine ⟨_, rfl, rfl, rfl, fun m d => (look_put _ _ _ _ _).trans ?_⟩
    by_cases h : m = n
    · rw [if_pos ⟨h.symm, by omega⟩, if_pos h]
    · rw [if_neg (fun h' => h h'.1.symm), if_neg h]
  · rw [exec_plain (c := .loadSource n r) rfl s hn rfl rfl]
    refine ⟨_, rfl, rfl, rfl, fun m d => (look_put _ _ _ _ _).trans ?_⟩
    by_cases h : m = n
    · rw [if_pos ⟨h.symm, by omega⟩, if_pos h]
    · rw [if_neg (fun h' => h h'.1.symm), if_neg h]
  · have hpos : 1 ≤ points.length := List.length_pos_iff.2 hp
    rw [exec_plain (c := .loadCurve n first points) rfl s ⟨hn, by omega, hpos, by omega, hlen⟩ rfl
      (by rw [Command.clamp, map_min_eq_self hle])]
    refine ⟨_, rfl, rfl, rfl, fun m d h => (look_put _ _ _ _ _).trans (if_neg fun h' => h h'.1.symm), fun i d hi => ?_⟩
    show look (look (put s.tables.shadowCurves n _) n d) i 0 = _
    rw [look_put_same _ (by omega), look_writePoints _ _ _ _ hi, look_of_lt s.tables.shadowCurves (by omega) d,
      look_of_lt s.tables.shadowCurves (by omega) identityCurve]
  · rw [exec_plain (c := .commit kinds) rfl s h rfl rfl]
    refine ⟨_, rfl, rfl, rfl, rfl, rfl, ?_⟩
    simp only [State.deliver, Tables.commit]
    refine ⟨fun h => ?_, fun h => ?_, fun h => ?_, fun h => ?_, fun h => ?_, fun h => ?_⟩ <;> rw [h] <;> exact ⟨rfl, rfl⟩

/-! ### Settings, generators and monitor (R76, R77, R122, R150, R160) -/

/-- Settles O35: SET NEXT, and SET TRANSITION by the engine and the style. -/
theorem nextSettingsAndSelectionAreStaged : Obligations.NextSettingsAndSelectionAreStaged := by
  refine ⟨fun tag me sel s => ?_, fun tag e x s h1 h2 h3 => ?_⟩
  · rw [exec_plain (c := .setNext me sel) rfl s trivial rfl rfl]
    exact ⟨_, rfl, rfl, s.engine_setEngine_same _ _, fun f hf => s.engine_setEngine_ne hf.symm _⟩
  · have hclamped : (Command.setTransition e x).clamp ≠ .setTransition e x ↔ 999 < x.rate := by
      cases x; simp [Command.clamp]
    rw [exec_clamped (c := .setTransition e x) rfl s ⟨h1, h2, h3⟩ rfl hclamped]
    refine ⟨_, rfl, ?_⟩
    simp only [Command.clamp, State.deliver, State.deliverSetTransition]
    cases hme : e.isMe with
    | true =>
      simp only [if_true]
      refine ⟨rfl, fun f hf => State.engine_setEngine_ne _ hf.symm _, ?_⟩
      rintro r rfl
      exact ⟨fun _ => ⟨State.engine_setEngine_same _ _ _, rfl⟩, nofun, nofun⟩
    | false =>
      simp only [Bool.false_eq_true, if_false]
      cases x.style with
      | mix =>
        refine ⟨rfl, fun f hf => State.engine_setEngine_ne _ hf.symm _, ?_⟩
        rintro r rfl
        exact ⟨nofun, fun _ _ => ⟨State.engine_setEngine_same _ _ _, rfl⟩, nofun⟩
      | wipe =>
        refine ⟨rfl, fun f hf => rfl, ?_⟩
        rintro r rfl
        exact ⟨nofun, nofun, fun _ _ => ⟨rfl, rfl⟩⟩

theorem clamp_eq_self_iff {x a b : Nat} (h : a ≤ b) : Sys2Proof.clamp x a b = x ↔ a ≤ x ∧ x ≤ b := by
  unfold Sys2Proof.clamp; omega

/-- Settles O41: each setting replaced with the clamped value in place. -/
theorem keyMatteAndMonitorSettings : Obligations.KeyMatteAndMonitorSettings := by
  refine ⟨fun tag n k s hn h1 h2 h3 h4 => ?_, fun tag m c s => ?_, fun tag point s h => ?_⟩
  · have hclamped : (Command.setKey n k).clamp ≠ .setKey n k ↔ k.gain < 16 ∨ 4095 < k.gain := by
      rw [← Nat.not_le, ← Nat.not_le, ← not_and_or, ← clamp_eq_self_iff (by decide)]
      cases k; simp [Command.clamp]
    rw [exec_clamped (c := .setKey n k) rfl s ⟨hn, h1, h2, h3, h4⟩ rfl hclamped]
    refine ⟨_, rfl, rfl, fun m => (look_put _ _ _ _ _).trans ?_, rfl⟩
    by_cases h : m = n
    · rw [if_pos ⟨h.symm, by omega⟩, if_pos h]; rfl
    · rw [if_neg (fun h' => h h'.1.symm), if_neg h]; rfl
  · have hclamped : (Command.setMatte m c).clamp ≠ .setMatte m c ↔
        c.y < 64 ∨ 940 < c.y ∨ c.cb < 64 ∨ 960 < c.cb ∨ c.cr < 64 ∨ 960 < c.cr := by
      have hall : (Command.setMatte m c).clamp = .setMatte m c ↔
          (64 ≤ c.y ∧ c.y ≤ 940) ∧ (64 ≤ c.cb ∧ c.cb ≤ 960) ∧ 64 ≤ c.cr ∧ c.cr ≤ 960 := by
        rw [← clamp_eq_self_iff (by decide), ← clamp_eq_self_iff (by decide), ← clamp_eq_self_iff (by decide)]
        cases c; simp [Command.clamp]
      rw [ne_eq, hall]
      omega
    rw [exec_clamped (c := .setMatte m c) rfl s trivial rfl hclamped]
    refine ⟨_, rfl, ?_⟩
    cases m with
    | matte1 => exact ⟨rfl, rfl, fun m' => by cases m' <;> rfl, rfl⟩
    | matte2 => exact ⟨rfl, rfl, fun m' => by cases m' <;> rfl, rfl⟩
  · rw [exec_plain (c := .setMonitor point) rfl s h rfl rfl]; rfl

/-! ### The path checker's commands and the conditions (R169, R170, R176, R177, R179, R180) -/

/-- Settles O42: the four commands on the checker's record. -/
theorem checkerAndSnapshotCommands : Obligations.CheckerAndSnapshotCommands := by
  refine ⟨fun tag point mode s h => ?_, fun tag s => ?_, fun tag s record h => ⟨?_, ?_⟩⟩
  · rw [exec_plain (c := .checkerStart point mode) rfl s h rfl rfl]; rfl
  · rw [exec_plain (c := .checkerStop) rfl s trivial rfl rfl]; rfl
  · subst h; rw [exec_plain (c := .snapshotKeep) rfl s trivial rfl rfl]; rfl
  · subst h; rw [exec_plain (c := .snapshotClear) rfl s trivial rfl rfl]; rfl

theorem Condition.isFor_iff (c : Condition) (kind : ConditionKind) (subject : Nat) :
    c.isFor kind subject = true ↔ c.kind = kind ∧ c.subject = subject := by
  simp [Condition.isFor]

/-- Settles O44: the three cases of a posting, and a notice by the places free. -/
theorem postingOfConditionsAndNotices : Obligations.PostingOfConditionsAndNotices := by
  refine ⟨?_, fun r x field => ⟨fun h => if_pos h, fun h h0 => ?_, fun h h0 => ?_⟩⟩
  · rintro r kind subject detail field t hw rfl
    have hany : (∃ c ∈ r.conditions, c.kind = kind ∧ c.subject = subject) ↔
        r.conditions.any (·.isFor kind subject) = true := by
      simp [Condition.isFor_iff]
    have hnone : (∀ c ∈ r.conditions, ¬(c.kind = kind ∧ c.subject = subject)) ↔
        ¬r.conditions.any (·.isFor kind subject) = true := by
      rw [← hany]; simp
    rw [hany, hnone]
    rcases r.post_cases kind subject detail field with ⟨ha, h⟩ | ⟨ha, hlen, h⟩ | ⟨ha, hlen, h⟩ <;> rw [h]
    · refine ⟨rfl, fun _ => ⟨rfl, List.length_map _, fun i c hc => ?_⟩, fun hn => absurd ha hn, fun hn => absurd ha hn⟩
      rw [List.getElem?_map, hc, Option.map_some]
      by_cases hf : c.kind = kind ∧ c.subject = subject
      · obtain ⟨rfl, rfl⟩ := hf
        simp [Condition.isFor]
      · rw [if_neg (by rwa [Condition.isFor_iff]), if_neg hf]
    · exact ⟨rfl, fun h' => by simp [ha] at h', fun _ _ => ⟨rfl, rfl⟩, fun _ h' => by omega⟩
    · exact ⟨rfl, fun h' => by simp [ha] at h', fun _ h' => by omega, fun _ _ => ⟨rfl, rfl⟩⟩
  · have hnotice : r.notice x field = { r with overflow := 1 }.post .noticeOverflow 0 0 field := by
      simp only [Reports.notice, h, h0]; rfl
    rw [hnotice]
    exact ⟨rfl, Reports.post_notices _ _ _ _ _, Reports.post_overflow _ _ _ _ _⟩
  · simp only [Reports.notice, h, h0]; rfl

/-- Settles O45: the removals of R179 and the settings of R180. -/
theorem clearConditionsAndSetReports : Obligations.ClearConditionsAndSetReports := by
  refine ⟨fun tag s => ?_, fun tag kind subject s h => ?_, fun tag enables mask s => ?_⟩
  · rw [exec_plain (c := .clearConditionsAll) rfl s trivial rfl rfl]; rfl
  · rw [exec_plain (c := .clearConditionsOne kind subject) rfl s h rfl rfl, State.deliver, State.deliverClearOne]
    refine ⟨_, rfl, rfl, ?_⟩
    have hfilter : ∀ c : Condition, c ∈ s.reports.conditions.filter (fun c => !c.isFor kind subject) ↔
        c ∈ s.reports.conditions ∧ ¬(c.kind = kind ∧ c.subject = subject) := fun c => by
      rw [List.mem_filter, ← Condition.isFor_iff]; simp
    unfold Reports.fullAfterRemoval
    split
    · next hlen =>
      exact ⟨rfl, hfilter, List.filter_sublist, by simp [Nat.not_le.2 hlen]⟩
    · next hlen =>
      exact ⟨rfl, hfilter, List.filter_sublist, by simp [Nat.not_lt.1 hlen]⟩
  · rw [exec_plain (c := .setReports enables mask) rfl s trivial rfl rfl]; rfl

/-! ### The mix and the curve stage (R123, R126) -/

/-- The weighted sum of R123 between its ends. -/
theorem weighted_between (p q : Nat) {k : Nat} (h : k ≤ 1024) :
    min p q * 1024 ≤ p * (1024 - k) + q * k ∧ p * (1024 - k) + q * k ≤ max p q * 1024 := by
  have hsum : ∀ x : Nat, x * 1024 = x * (1024 - k) + x * k := fun x => by
    rw [← Nat.mul_add, Nat.sub_add_cancel h]
  rw [hsum, hsum]
  exact ⟨Nat.add_le_add (Nat.mul_le_mul_right _ (Nat.min_le_left _ _)) (Nat.mul_le_mul_right _ (Nat.min_le_right _ _)),
    Nat.add_le_add (Nat.mul_le_mul_right _ (Nat.le_max_left _ _)) (Nat.mul_le_mul_right _ (Nat.le_max_right _ _))⟩

/-- Settles O48: the weighted sum lies between 1024 times its ends. -/
theorem mixLiesBetweenItsSamples : Obligations.MixLiesBetweenItsSamples := by
  intro p q k h
  obtain ⟨hlow, hhigh⟩ := weighted_between p q h
  obtain ⟨hlow', hhigh'⟩ := weighted_between p p h
  rw [Nat.min_self] at hlow'
  rw [Nat.max_self] at hhigh'
  refine ⟨rfl, ?_, ?_, mix_zero p q, mix_full p q, ?_⟩ <;> unfold mix <;> omega

/-- The interpolation of R126 goes no lower than both points. -/
theorem le_interpolated {p q f b : Int} (hp : b ≤ p) (hq : b ≤ q) (h0 : 0 ≤ f) (h32 : f ≤ 32) :
    b ≤ p + ((q - p) * f + 16) / 32 := by
  have h : (b - p) * 32 ≤ (q - p) * f :=
    calc (b - p) * 32 ≤ (b - p) * f := Int.mul_le_mul_of_nonpos_left (by omega) h32
      _ ≤ (q - p) * f := Int.mul_le_mul_of_nonneg_right (by omega) h0
  omega

/-- The curve stage below 1024, by the segment and the place in it (R126). -/
theorem curveKey_segment (c : Curve) {i f : Nat} (hi : i ≤ 31) (hf : f ≤ 31) :
    (curveKey c (32 * i + f) : Int) =
      (curvePoint c i : Int) + (((curvePoint c (i + 1) : Int) - (curvePoint c i : Int)) * (f : Int) + 16) / 32 := by
  have hdiv : (32 * i + f) / 32 = i := by omega
  have hpos := le_interpolated (p := curvePoint c i) (q := curvePoint c (i + 1)) (f := f) (b := 0) (by omega) (by omega)
    (by omega) (by omega)
  rw [curveKey, if_neg (by omega)]
  dsimp only
  rw [hdiv, Nat.add_sub_cancel_left]
  exact Int.toNat_of_nonneg hpos

theorem identityCurve_point {i : Nat} (h : i ≤ 32) : curvePoint identityCurve i = 32 * i := by
  rw [curvePoint, look_of_lt _ (Nat.lt_succ_of_le h)]
  simp [identityCurve]

/-- Settles O49: by the segment of the input. -/
theorem curveInterpolatesBetweenPoints : Obligations.CurveInterpolatesBetweenPoints := by
  refine ⟨fun c => if_pos rfl, fun c i f hi hf => ?_, fun c a ha h => curveKey_le h ha, fun a ha => ?_⟩
  · have hkey := curveKey_segment c hi hf
    have hlow := le_interpolated (p := curvePoint c i) (q := curvePoint c (i + 1)) (f := f)
      (b := min (curvePoint c i) (curvePoint c (i + 1))) (by omega) (by omega) (by omega) (by omega)
    have hhigh := interpolated_le (p := curvePoint c i) (q := curvePoint c (i + 1)) (f := f)
      (b := max (curvePoint c i) (curvePoint c (i + 1))) (by omega) (by omega) (by omega) (by omega)
    have hstart := curveKey_segment c hi (Nat.zero_le 31)
    rw [← hkey] at hlow hhigh
    refine ⟨hkey, by omega, by omega, ?_⟩
    rw [Nat.add_zero, Nat.cast_zero, mul_zero] at hstart
    omega
  · rcases Nat.eq_or_lt_of_le ha with rfl | ha
    · rw [curveKey, if_pos rfl, identityCurve_point le_rfl]
    · have hkey := curveKey_segment identityCurve (i := a / 32) (f := a % 32) (by omega) (by omega)
      rw [identityCurve_point (by omega), identityCurve_point (by omega), Nat.div_add_mod] at hkey
      omega

end Sys2Proof.Machine
end

section
/-!
RESULTS. The Command Receiver (R17, R22, R23, R182): what the words on lane C come to, and the classification of an
arrival by its due field (R31, R33, R34).
-/

namespace Sys2Proof.Machine

open Sys2Proof

/-! ### Reception (R22, R23, R182) -/

theorem wordByte_toNat (w : LinkWord) : (wordByte w).toNat = w.toNat % 256 := BitVec.toNat_ofNat _ _

/-- The word that carries a byte carries that byte (R182). -/
theorem wordByte_byteWord (b : Byte) : wordByte (byteWord b) = b := by
  have hb : b.toNat < 256 := b.isLt
  refine BitVec.eq_of_toNat_eq ?_
  rw [wordByte_toNat, byteWord, BitVec.toNat_ofNat]
  split <;> omega

section
variable {s : State} {length : LinkWord} {rest : List LinkWord}

theorem State.judgePacket_badLength (h : (wordByte length).toNat < 6 ∨ 248 < (wordByte length).toNat) :
    s.judgePacket (length :: rest) = s.dropPacket 1 := if_pos h

theorem State.judgePacket_short (h6 : 6 ≤ (wordByte length).toNat) (h248 : (wordByte length).toNat ≤ 248)
    (h : rest.length ≤ (wordByte length).toNat) :
    s.judgePacket (length :: rest) =
      { s with receiver := { s.receiver with inReception := some (length :: rest) } } := by
  rw [State.judgePacket]
  simp only [if_neg (show ¬((wordByte length).toNat < 6 ∨ 248 < (wordByte length).toNat) by omega),
    List.getElem?_eq_none h]

/-- A whole packet, by its check word (R182). -/
theorem State.judgePacket_whole {bytes : List LinkWord} {check : LinkWord} (h6 : 6 ≤ bytes.length)
    (h248 : bytes.length ≤ 248) (hlen : bytes.length = (wordByte length).toNat) :
    s.judgePacket (length :: (bytes ++ [check])) =
      if check = checkWord ([0x25A#10, 0x1C3#10, length] ++ bytes) then
        s.endReception.acceptPacket (bytes.map wordByte)
      else s.dropPacket 0 := by
  rw [State.judgePacket]
  simp only [← hlen, if_neg (show ¬(bytes.length < 6 ∨ 248 < bytes.length) by omega), List.getElem?_concat_length,
    List.take_left]

/-- Words behind the flag and the control identity, while lane C takes packets (R17, R182). -/
theorem State.controlPacket_started (h : s.takesPackets = true) (words : List LinkWord) :
    s.controlPacket ([0x3FE#10, 0x001#10, 0x25A#10, 0x1C3#10] ++ words) = s.judgePacket words :=
  if_pos ⟨h, rfl⟩

end

/-- A packet framed as R182 lays it out, while lane C takes packets (R22). -/
theorem State.controlPacket_framed {s : State} (hs : s.takesPackets = true) {payload : List Byte}
    (h6 : 6 ≤ payload.length) (h248 : payload.length ≤ 248) :
    s.controlPacket (framePacket .control payload) = s.endReception.acceptPacket payload := by
  have hframe : framePacket .control payload =
      [0x3FE#10, 0x001#10, 0x25A#10, 0x1C3#10] ++
        byteWord (byteOf payload.length) ::
          (payload.map byteWord ++ [checkWord (checkedWords .control payload)]) := by
    simp [framePacket, checkedWords, PacketKind.identity]
  have hlen : (payload.map byteWord).length = (wordByte (byteWord (byteOf payload.length))).toNat := by
    rw [List.length_map, wordByte_byteWord, byteOf_toNat]
    omega
  have hbytes : (payload.map byteWord).map wordByte = payload := by
    rw [List.map_map]
    exact (List.map_congr_left fun b _ => wordByte_byteWord b).trans (List.map_id _)
  rw [hframe, State.controlPacket_started hs, State.judgePacket_whole (by simpa) (by simpa) hlen, hbytes]
  exact if_pos rfl

/-- Settles O25: a framed packet is whole and its check word agrees. -/
theorem framedPacketIsACommandArrival : Obligations.FramedPacketIsACommandArrival := by
  intro payload s hs htaken h6 h248
  have h : exec (.controlPacket (framePacket .control payload)) s = .next (s.endReception.acceptPacket payload) :=
    congrArg _ (State.controlPacket_framed hs h6 h248)
  rw [h, State.acceptPacket, if_neg (by exact Nat.not_le.2 htaken)]
  rfl

/-- Settles O26: each way of not being accepted, by the words that have come. -/
theorem packetsThatAreNotAccepted : Obligations.PacketsThatAreNotAccepted := by
  refine ⟨fun words s h => ?_, fun length rest s n hs hn => ?_, fun s h => ?_, fun s h => ?_, fun words s h => ?_,
    fun words s => ?_, fun s h => ?_⟩
  · refine congrArg Host.Outcome.next (if_neg fun hp => ?_)
    rcases h with h | h
    · exact absurd (h.symm.trans hp.1) Bool.false_ne_true
    · exact h hp.2
  · have hexec : ∀ rest, exec (.controlPacket ([0x3FE#10, 0x001#10, 0x25A#10, 0x1C3#10, length] ++ rest)) s =
        .next (s.judgePacket (length :: rest)) := fun rest =>
      congrArg Host.Outcome.next (State.controlPacket_started hs (length :: rest))
    rw [← wordByte_toNat] at hn
    rw [hexec]
    refine ⟨fun h => ?_, fun h6 h248 h => ?_, fun bytes check h6 h248 hlen hrest => ⟨fun hc => ?_, fun hc ht => ?_⟩⟩
    · rw [State.judgePacket_badLength (hn ▸ h)]; rfl
    · rw [State.judgePacket_short (hn ▸ h6) (hn ▸ h248) (hn ▸ h)]
    · rw [hrest, State.judgePacket_whole (hlen ▸ h6) (hlen ▸ h248) (hlen.trans hn), if_neg hc]; rfl
    · rw [hrest, State.judgePacket_whole (hlen ▸ h6) (hlen ▸ h248) (hlen.trans hn), if_pos hc, State.acceptPacket,
        if_pos (by exact ht)]
      rfl
  · exact congrArg Host.Outcome.next (if_neg (by simp [h]))
  · exact congrArg Host.Outcome.next (if_pos (Option.isSome_iff_ne_none.2 h))
  · exact congrArg Host.Outcome.next (if_neg (by simp [h]))
  · refine congrArg Host.Outcome.next ?_
    cases hs : s.takesPackets with
    | true => rw [State.controlPacket_started hs]; exact if_pos hs
    | false => rw [State.controlPacket, if_neg (by simp [hs]), State.startReception, if_neg (by simp [hs])]
  · exact congrArg Host.Outcome.next (if_pos h)

/-! ### Classification by due field (R31, R33, R34) -/

/-- The place of an insertion: after every entry due then or earlier, before every later one (R33). -/
theorem insertEntry_inPlace (n : FieldNo) (e : Entry) (l : List Entry) : insertedInPlace n e l (insertEntry n e l) := by
  induction l with
  | nil => exact ⟨[], [], rfl, rfl, nofun, nofun, fun _ => nofun⟩
  | cons x rest ih =>
    rw [insertEntry]
    by_cases h : ahead n x.due ≤ ahead n e.due
    · obtain ⟨before, after, hold, hnew, hbefore, hhead, hafter⟩ := ih
      rw [if_pos h, hnew]
      refine ⟨x :: before, after, by rw [hold]; rfl, rfl, fun y hy => ?_, hhead,
        fun hp => hafter (List.pairwise_cons.1 hp).2⟩
      rcases List.mem_cons.1 hy with rfl | hy
      · exact h
      · exact hbefore y hy
    · rw [if_neg h]
      refine ⟨[], x :: rest, rfl, rfl, nofun, fun y hy => ?_, fun hp y hy => ?_⟩
      · cases hy
        exact Nat.lt_of_not_le h
      · rcases List.mem_cons.1 hy with rfl | hy
        · exact Nat.lt_of_not_le h
        · exact Nat.lt_of_lt_of_le (Nat.lt_of_not_le h) ((List.pairwise_cons.1 hp).1 y hy)

/-- The notices and the condition of an insertion, in their order (R28, R34, log 40). -/
theorem State.offer_reports (s : State) (tag : Tag) (c : Command) (due : FieldNo) (clamped late : Bool)
    (h : s.waiting.entries.length < 64) {r1 r2 : Reports}
    (h1 : r1 = if clamped then s.reports.notice ⟨tag, c.code, .clamped, c.subject⟩ s.timing.field else s.reports)
    (h2 : r2 = if s.waiting.hold = false ∧ 48 ≤ s.waiting.entries.length + 1 then
      r1.post .queueHold 0 (s.waiting.entries.length + 1 : Nat) s.timing.field else r1) :
    (s.offer tag c due clamped late).reports =
      if late then r2.notice ⟨tag, c.code, .late, c.subject⟩ s.timing.field else r2 := by
  have hclamped : (s.noticeIf clamped tag c .clamped).reports = r1 := by rw [h1]; cases clamped <;> rfl
  rw [State.offer, if_neg (Nat.not_le.2 h)]
  simp only [State.holdAfterInsertion, State.noticeIf_waiting, State.noticeIf_timing, length_insertEntry]
  by_cases hh : s.waiting.hold = false ∧ 48 ≤ s.waiting.entries.length + 1
  · rw [if_pos hh] at h2
    rw [if_pos hh.symm]
    cases late <;> simp [State.noticeIf, State.postNotice, State.postCondition, h2, ← hclamped]
  · rw [if_neg hh] at h2
    rw [if_neg (mt And.symm hh)]
    cases late <;> simp [State.noticeIf, State.postNotice, h2, ← hclamped]

/-- An arrival that passes the tests and may stand in the Pending List (R28, R31). -/
theorem State.arrive_queued (s : State) {p : List Byte} {c : Command} {due : Option FieldNo}
    (hv : validate p = .passed c due) (ha : c.atArrival = false) :
    s.arrive p = s.classify (tagOf p) c.clamp due (c.clamp != c) := by
  simp only [State.arrive, hv, ha, Bool.false_eq_true, if_false]

theorem State.classify_stale (s : State) (tag : Tag) (c : Command) (clamped : Bool) {y : FieldNo}
    (hlow : 32768 ≤ ahead s.timing.counter y) (hhigh : ahead s.timing.counter y ≤ 65533) :
    s.classify tag c (some y) clamped = s.postNotice tag c.code .stale c.subject := by
  rw [State.classify]
  exact (if_neg (by omega)).trans (if_neg (by omega))

/-- The due field of a classified command, and whether it is late (R31). -/
theorem State.classify_offers (s : State) (tag : Tag) (c : Command) (clamped : Bool) {due : Option FieldNo}
    {x : FieldNo} {late : Bool}
    (h : due = none ∧ x = s.timing.counter ∧ late = false ∨
      (∃ y, due = some y ∧ ahead s.timing.counter y ≤ 32767 ∧ x = y ∧ late = false) ∨
      (∃ y, due = some y ∧ 65534 ≤ ahead s.timing.counter y ∧ x = s.timing.counter ∧ late = true)) :
    s.classify tag c due clamped = s.offer tag c x clamped late := by
  obtain ⟨rfl, rfl, rfl⟩ | ⟨y, rfl, hy, rfl, rfl⟩ | ⟨y, rfl, hy, rfl, rfl⟩ := h
  · rfl
  · rw [State.classify]
    exact if_pos hy
  · rw [State.classify]
    exact (if_neg (by omega)).trans (if_pos hy)

/-- Settles O28: by the due field, then by the places free. -/
theorem arrivalsAreClassifiedByDueField : Obligations.ArrivalsAreClassifiedByDueField := by
  intro p c due s hv harr
  obtain ⟨-, -, -, hcode, hsubject⟩ := c.clamp_tests
  rw [s.arrive_queued hv harr]
  refine ⟨fun y hy hlow hhigh => ?_, fun x late hx => ?_⟩
  · rw [hy, s.classify_stale _ _ _ hlow hhigh, hcode, hsubject]; rfl
  rw [s.classify_offers _ _ _ hx]
  rcases s.offer_cases (tagOf p) c.clamp x (c.clamp != c) late with ⟨hfull, h⟩ | ⟨hroom, h, hentries, hhold⟩
  · refine ⟨fun _ => ?_, fun h => absurd h (Nat.not_lt.2 hfull)⟩
    rw [h, hcode, hsubject]; rfl
  · refine ⟨fun h => absurd h (Nat.not_le.2 hroom), fun _ => ⟨_, rfl, h, ?_, hhold, fun r1 r2 h1 h2 => ?_⟩⟩
    · rw [hentries]; exact insertEntry_inPlace _ _ _
    · rw [s.offer_reports _ _ _ _ _ hroom (r1 := r1) ?_ h2, hcode, hsubject]
      rw [h1, hcode, hsubject]
      by_cases hc : c.clamp = c
      · rw [if_pos hc, hc, bne_self_eq_false]; rfl
      · rw [if_neg hc, bne_iff_ne.2 hc]; rfl

end Sys2Proof.Machine
end

section
/-!
RESULTS. The payload layouts of 11.4: which payloads the tests of R26 pass (R27, R183), that an encoded command is
read back, and the way from the words on lane C to the Pending List.
-/

namespace Sys2Proof.Machine

open Sys2Proof

/-! ### Bytes and codes (R183, 11.3) -/

theorem byteAt_lt (p : List Byte) (i : Nat) : byteAt p i < 256 := (p.getD i 0).isLt

theorem fieldAt_lt (p : List Byte) (i : Nat) : fieldAt p i < 65536 := by
  have := byteAt_lt p i
  have := byteAt_lt p (i + 1)
  unfold fieldAt
  omega

theorem longAt_lt (p : List Byte) (i : Nat) : longAt p i < 2 ^ 32 := by
  have := fieldAt_lt p i
  have := fieldAt_lt p (i + 2)
  unfold longAt
  omega

section
variable (n : Nat)

theorem decodeBool_isSome : (decodeBool n = some false ∨ decodeBool n = some true) ↔ n ≤ 1 := by
  rcases n with _ | _ | n <;> simp [decodeBool]

theorem decodeMe_isSome : (∃ x, decodeMe n = some x) ↔ n ≤ 1 := by
  rcases n with _ | _ | n <;> simp [decodeMe]

theorem decodeEngine_isSome : (∃ x, decodeEngine n = some x) ↔ n ≤ 4 := by
  rcases n with _ | _ | _ | _ | _ | n <;> simp [decodeEngine]

theorem decodeStyle_isSome : (∃ x, decodeStyle n = some x) ↔ n ≤ 1 := by
  rcases n with _ | _ | n <;> simp [decodeStyle]

theorem decodeMatte_isSome : (∃ x, decodeMatte n = some x) ↔ n ≤ 1 := by
  rcases n with _ | _ | n <;> simp [decodeMatte]

theorem decodeSubstitute_isSome : (∃ x, decodeSubstitute n = some x) ↔ n ≤ 2 := by
  rcases n with _ | _ | _ | n <;> simp [decodeSubstitute]

theorem decodeKeyType_isSome : (∃ x, decodeKeyType n = some x) ↔ n ≤ 1 := by
  rcases n with _ | _ | n <;> simp [decodeKeyType]

theorem decodeFormat_isSome : (∃ x, decodeFormat n = some x) ↔ n ≤ 2 := by
  rcases n with _ | _ | _ | n <;> simp [decodeFormat]

theorem decodeShapeKind_isSome : (∃ x, decodeShapeKind n = some x) ↔ n ≤ 4 := by
  rcases n with _ | _ | _ | _ | _ | n <;> simp [decodeShapeKind]

theorem decodeConditionKind_isSome : (∃ x, decodeConditionKind n = some x) ↔ n ≤ 10 := by
  rcases n with _ | _ | _ | _ | _ | _ | _ | _ | _ | _ | _ | n <;> simp [decodeConditionKind]

theorem decodeCheckMode_isSome : (∃ x, decodeCheckMode n = some x) ↔ n ≤ 1 := by
  rcases n with _ | _ | n <;> simp [decodeCheckMode]

theorem decodeMap_isSome (k : Nat) : (∃ x, decodeMap k n = some x) ↔ n < 2 ^ k := by
  unfold decodeMap; split <;> simp [*]

end

/-- A set of engines is read from a byte that names at least one of the five. -/
theorem decodeEngineSet_inSets (n : Nat) :
    (∃ set, decodeMap 5 n = some set ∧ ∃ e : EngineId, e.isIn set = true) ↔ 1 ≤ n ∧ n ≤ 31 := by
  simp only [← engineSet_inRange_iff, bne_iff_ne]
  unfold decodeMap
  split
  · next h =>
    have hz : BitVec.ofNat 5 n = 0#5 ↔ n = 0 := by
      rw [← BitVec.toNat_inj]
      simp
      omega
    simp [hz]
    omega
  · next h => simp; omega

/-- The monitor points of 11.3. -/
theorem decodeMonPoint_inSets (n : Nat) :
    (∃ x, decodeMonPoint n = some x ∧ ∀ m, x = .source m → m ≤ 30) ↔ n ≤ 30 ∨ 32 ≤ n ∧ n ≤ 36 := by
  unfold decodeMonPoint
  split
  · next h => simp [h]
  · next h => (split <;> simp); grind

/-- The checker points of 11.3. -/
theorem decodeCheckPoint_inSets (n : Nat) :
    (∃ x, decodeCheckPoint n = some x ∧ ∀ m, x = .lane m → 1 ≤ m ∧ m ≤ 24) ↔
      1 ≤ n ∧ n ≤ 24 ∨ 32 ≤ n ∧ n ≤ 35 ∨ n = 37 := by
  unfold decodeCheckPoint
  split
  · next h => simp [h]
  · next h => (split <;> simp); grind

theorem decodeTableSet_inSets (n : Nat) :
    (∃ x, decodeTableSet n = some x ∧ (x.shapes = true ∨ x.curves = true ∨ x.sources = true)) ↔ 1 ≤ n ∧ n ≤ 7 := by
  by_cases h : n < 8
  · interval_cases n <;> simp [decodeTableSet, decodeMap]
  · simp [decodeTableSet, decodeMap, h]; omega

theorem laneMap_inSets {n : Nat} (h : n < 2 ^ 32) :
    ((∃ k, (BitVec.ofNat 32 n).getLsbD k = true) ∧ ∀ k, (BitVec.ofNat 32 n).getLsbD k = true → 1 ≤ k ∧ k ≤ 25) ↔
      n ≠ 0 ∧ n % 2 = 0 ∧ n < 2 ^ 26 := by
  have hbit : ∀ k, (BitVec.ofNat 32 n).getLsbD k = n.testBit k := fun k => by
    rw [BitVec.getLsbD_ofNat, Bool.and_eq_right_iff_imp, decide_eq_true_eq]
    exact fun hk => Nat.lt_of_not_le fun hle => by simp [Nat.testBit_lt_two_pow (h.trans_le (Nat.pow_le_pow_right (by decide) hle))] at hk
  simp only [hbit]
  refine and_congr ⟨?_, Nat.exists_testBit_of_ne_zero⟩ ⟨fun hall => ⟨?_, ?_⟩, fun ⟨heven, hlt⟩ k hk => ⟨?_, ?_⟩⟩
  · rintro ⟨k, hk⟩ rfl
    simp at hk
  · by_contra hodd
    have h0 : n.testBit 0 = true := by rw [Nat.testBit_zero]; simp; omega
    exact absurd (hall 0 h0).1 (by decide)
  · refine Nat.lt_pow_two_of_testBit n fun k hk => Bool.eq_false_iff.2 fun ht => ?_
    exact absurd (hall k ht).2 (by omega)
  · refine Nat.one_le_iff_ne_zero.2 fun h0 => ?_
    rw [h0, Nat.testBit_zero] at hk
    simp at hk
    omega
  · by_contra hk'
    rw [Nat.testBit_lt_two_pow (hlt.trans_le (Nat.pow_le_pow_right (by decide) (by omega)))] at hk
    exact Bool.false_ne_true hk

theorem decodeBits_isSome (n : Nat) :
    ((∃ x, decodeNextSel n = some x) ↔ n ≤ 15) ∧ ((∃ x, decodeSourceRecord n = some x) ↔ n ≤ 7) ∧
      ((∃ x, decodeEnables n = some x) ↔ n ≤ 7) := by
  have hmap : ∀ (k : Nat) {α : Type} (f : BitVec k → α), (∃ x, (decodeMap k n).map f = some x) ↔ n < 2 ^ k := by
    intro k α f
    rw [← decodeMap_isSome, ← Option.isSome_iff_exists, ← Option.isSome_iff_exists, Option.isSome_map]
  exact ⟨(hmap 4 _).trans Nat.lt_succ_iff, (hmap 3 _).trans Nat.lt_succ_iff, (hmap 3 _).trans Nat.lt_succ_iff⟩

theorem decodeMaskShape_inSets (n : Nat) : (∀ m, decodeMaskShape n = some m → m ≤ 15) ↔ n ≤ 15 ∨ n = 255 := by
  unfold decodeMaskShape
  split <;> simp [*]

theorem length_curvePoints (p : List Byte) (count : Nat) : (curvePoints p count).length = count := by
  simp [curvePoints]

section
variable (p : List Byte)

theorem setTransition_inSets (h : byteAt p 0 = 3) :
    (∃ c, decodeCommand p = some c ∧ inValueSets c) ↔ payloadInSets p := by
  have h11 := Nat.le_of_lt_succ (byteAt_lt p 11)
  have h12 := Nat.le_of_lt_succ (byteAt_lt p 12)
  simp only [decodeCommand, payloadInSets, h, inValueSets, bind, Option.bind_eq_some_iff, pure, Option.some.injEq]
  simp [decodeEngine_isSome, decodeStyle_isSome, decodeMatte_isSome, decodeBool_isSome, h11, h12]
  exact ⟨fun ⟨⟨a, b, c, d⟩, e⟩ => ⟨a, b, e, c, d⟩, fun ⟨a, b, e, c, d⟩ => ⟨⟨a, b, c, d⟩, e⟩⟩

theorem setKey_inSets (h : byteAt p 0 = 11) :
    (∃ c, decodeCommand p = some c ∧ inValueSets c) ↔ payloadInSets p := by
  simp only [decodeCommand, payloadInSets, h, inValueSets, bind, Option.bind_eq_some_iff, pure, Option.some.injEq]
  simp [decodeKeyType_isSome, decodeBool_isSome, decodeMaskShape_inSets]
  exact ⟨fun ⟨⟨b, d, h⟩, a, c, e, f, g⟩ => ⟨a, b, c, d, e, f, g, h⟩,
    fun ⟨a, b, c, d, e, f, g, h⟩ => ⟨⟨b, d, h⟩, a, c, e, f, g⟩⟩

theorem setLane_inSets (h : byteAt p 0 = 13) :
    (∃ c, decodeCommand p = some c ∧ inValueSets c) ↔ payloadInSets p := by
  simp only [decodeCommand, payloadInSets, h, inValueSets, bind, Option.bind_eq_some_iff, pure, Option.some.injEq]
  simp [decodeSubstitute_isSome, decodeBool_isSome]
  exact ⟨fun ⟨⟨c, f⟩, a, b, d, e⟩ => ⟨a, b, c, d, e, f⟩, fun ⟨a, b, c, d, e, f⟩ => ⟨⟨c, f⟩, a, b, d, e⟩⟩

theorem checker_inSets (h : byteAt p 0 = 21) :
    (∃ c, decodeCommand p = some c ∧ inValueSets c) ↔ payloadInSets p := by
  simp only [decodeCommand, payloadInSets, h]
  rcases byteAt p 6 with _ | _ | n
  · simp [inValueSets]
  · rw [← decodeCheckPoint_inSets, ← decodeCheckMode_isSome]
    simp only [inValueSets, bind, Option.bind_eq_some_iff, pure, Option.some.injEq]
    simp
    exact ⟨fun ⟨x, ⟨hx, hm⟩, hl⟩ => ⟨hm, x, hx, hl⟩, fun ⟨hm, x, hx, hl⟩ => ⟨x, ⟨hx, hm⟩, hl⟩⟩
  · simp

theorem clearConditions_inSets (h : byteAt p 0 = 23) :
    (∃ c, decodeCommand p = some c ∧ inValueSets c) ↔ payloadInSets p := by
  simp only [decodeCommand, payloadInSets, h]
  rcases byteAt p 6 with _ | _ | n
  · simp [inValueSets]
  · simp [inValueSets, decodeConditionKind_isSome, Option.bind_eq_some_iff]
  · simp

/-- The payloads whose command lies in the value sets of R27 are those whose bytes hold values given for them. The
cases are the kinds, by their numbers. -/
theorem decodeCommand_inSets : (∃ c, decodeCommand p = some c ∧ inValueSets c) ↔ payloadInSets p := by
  by_cases h : byteAt p 0 = 3 ∨ byteAt p 0 = 11 ∨ byteAt p 0 = 13 ∨ byteAt p 0 = 21 ∨ byteAt p 0 = 23
  · obtain h | h | h | h | h := h
    · exact setTransition_inSets p h
    · exact setKey_inSets p h
    · exact setLane_inSets p h
    · exact checker_inSets p h
    · exact clearConditions_inSets p h
  · unfold decodeCommand
    split
    case h_3 | h_11 | h_13 | h_21 | h_23 => simp_all
    case h_14 hk => simpa [payloadInSets, hk, inValueSets] using laneMap_inSets (longAt_lt p 6)
    case h_16 hk =>
      simp [payloadInSets, hk, inValueSets, Option.bind_eq_some_iff, decodeShapeKind_isSome, and_left_comm]
    case h_17 hk => simp [payloadInSets, hk, inValueSets, length_curvePoints]
    case h_18 hk => simp [payloadInSets, hk, inValueSets, Option.bind_eq_some_iff, decodeBits_isSome, and_comm]
    case h_22 hk => rcases hb : byteAt p 6 with _ | _ | n <;> simp [payloadInSets, hk, hb, inValueSets]
    case h_24 hk =>
      simp [payloadInSets, hk, inValueSets, Option.bind_eq_some_iff, decodeBits_isSome, decodeMap_isSome,
        Nat.lt_succ_iff]
    case h_25 hk => rcases hb : byteAt p 6 with _ | _ | n <;> simp [payloadInSets, hk, hb, inValueSets]
    case h_26 hk => by_cases h : byteAt p 6 = 255 <;> simp [payloadInSets, hk, inValueSets, h]
    case h_28 =>
      have hnone : ¬payloadInSets p := by
        unfold payloadInSets
        split
        case h_28 => exact id
        all_goals exact absurd ‹byteAt p 0 = _› ‹_›
      simp [hnone]
    all_goals
      rename_i hk
      simp [payloadInSets, hk, inValueSets, Option.bind_eq_some_iff, decodeEngineSet_inSets, decodeMonPoint_inSets,
        decodeTableSet_inSets, decodeMe_isSome, decodeEngine_isSome, decodeMatte_isSome, decodeFormat_isSome,
        decodeBits_isSome]

end

/-! ### The four tests (R26) -/

theorem knownKind_iff (k : Nat) : knownKind k = true ↔ 1 ≤ k ∧ k ≤ 27 := by simp [knownKind]

/-- The timing flag and the due field of a payload (R25). -/
theorem timingOf_eq (p : List Byte) :
    timingOf p =
      if byteAt p 3 ≤ 1 then
        some (if byteAt p 3 = 0 then none else some (BitVec.ofNat 16 (fieldAt p 4)))
      else none := by
  unfold timingOf
  rcases byteAt p 3 with _ | _ | n <;> simp

/-- The command of a payload is of the kind that the payload's first byte names (11.4). -/
theorem code_of_decodeCommand {p : List Byte} {c : Command} (h : decodeCommand p = some c) : c.code = byteAt p 0 := by
  unfold decodeCommand at h
  split at h
  case h_21 | h_22 | h_23 | h_25 =>
    split at h <;> simp [Option.bind_eq_some_iff] at h <;> grind [Command.code]
  all_goals simp [Option.bind_eq_some_iff] at h <;> grind [Command.code]

/-- A SELECT is read from a payload of kind 1 (11.4). -/
theorem decodeCommand_select {p : List Byte} {bus source : Nat} :
    decodeCommand p = some (.select bus source) ↔ byteAt p 0 = 1 ∧ byteAt p 6 = bus ∧ byteAt p 7 = source := by
  have hone : byteAt p 0 = 1 → decodeCommand p = some (.select (byteAt p 6) (byteAt p 7)) := fun h => by
    simp only [decodeCommand, h]
  constructor
  · intro h
    have hk : byteAt p 0 = 1 := (code_of_decodeCommand h).symm
    cases h.symm.trans (hone hk)
    exact ⟨hk, rfl, rfl⟩
  · rintro ⟨hk, rfl, rfl⟩
    exact hone hk

section
variable {p : List Byte} (h1 : 1 ≤ byteAt p 0) (h27 : byteAt p 0 ≤ 27) (hl : payloadLength p = some p.length)
include h1 h27 hl

/-- Tests 3 and 4 of R26, on a payload of a known kind and its length. -/
theorem validate_tested :
    (timingOf p = none ∨ decodeCommand p = none → validate p = .refused .badRange 0) ∧
      ∀ due c, timingOf p = some due → decodeCommand p = some c →
        validate p =
          if c.inRange = false then .refused .badRange 0
          else if c.loops then .refused .loop c.subject else .passed c due := by
  rw [validate, if_neg (by simp [(knownKind_iff _).2 ⟨h1, h27⟩]), if_neg (not_not.2 hl)]
  refine ⟨fun h => ?_, fun due c ht hd => by rw [ht, hd]⟩
  split
  · next ht hd => simp [ht, hd] at h
  · rfl

theorem validate_badRange (h : 2 ≤ byteAt p 3 ∨ ¬payloadInSets p) : validate p = .refused .badRange 0 := by
  obtain ⟨hnone, hsome⟩ := validate_tested h1 h27 hl
  by_cases ht : byteAt p 3 ≤ 1
  · cases hd : decodeCommand p with
    | none => exact hnone (.inr hd)
    | some c =>
      rw [hsome _ c (timingOf_eq p |>.trans (if_pos ht)) hd]
      refine if_pos (Bool.eq_false_iff.2 fun hr => ?_)
      exact (h.resolve_left (by omega)) ((decodeCommand_inSets p).1 ⟨c, hd, (commandInRange_iff c).1 hr⟩)
  · exact hnone (.inl ((timingOf_eq p).trans (if_neg ht)))

end

/-- Settles O27: the tests in their order, the third by the bytes of the payload. -/
theorem arrivalTestsRefuseInOrder : Obligations.ArrivalTestsRefuseInOrder := by
  refine ⟨fun p h => if_pos (Bool.eq_false_iff.2 fun hk => ?_), fun p h1 h27 hl => ?_,
    fun p h1 h27 hl h => validate_badRange h1 h27 hl h, fun p loop h1 h27 hl h3 hsets hloop => ?_,
    fun p reason subject s h => ?_⟩
  · have := (knownKind_iff _).1 hk
    omega
  · rw [validate, if_neg (by simp [(knownKind_iff _).2 ⟨h1, h27⟩]), if_pos hl]
  · obtain ⟨c, hc, hr⟩ := (decodeCommand_inSets p).2 hsets
    have hv : validate p = if c.loops then .refused .loop c.subject else
        .passed c (if byteAt p 3 = 0 then none else some (BitVec.ofNat 16 (fieldAt p 4))) := by
      rw [(validate_tested h1 h27 hl).2 _ c ((timingOf_eq p).trans (if_pos h3)) hc]
      exact if_neg (by simp [(commandInRange_iff c).2 hr])
    have hloops : c.loops = true ↔ loop := by
      rw [commandLoops_iff, hloop]
      constructor
      · rintro ⟨bus, source, rfl, h⟩
        obtain ⟨hk, rfl, rfl⟩ := decodeCommand_select.1 hc
        exact ⟨hk, by omega⟩
      · rintro ⟨hk, h⟩
        have hs := hc.symm.trans (decodeCommand_select.2 ⟨hk, rfl, rfl⟩)
        cases hs
        have hr7 : byteAt p 7 ≤ 30 := hr.2
        exact ⟨_, _, rfl, by omega⟩
    refine ⟨fun h => ?_, fun h => ⟨c, hc, hr, ?_⟩⟩
    · rw [hv, if_pos (hloops.2 h)]
      obtain ⟨bus, source, rfl, -⟩ := (commandLoops_iff c).1 (hloops.2 h)
      rw [(decodeCommand_select.1 hc).2.1]
      rfl
    · rw [hv, if_neg (mt hloops.1 h)]
  · simp only [State.arrive, h]
    rfl

end Sys2Proof.Machine
end

section
/-!
RESULTS. The encoder and the decoder of 11.4 agree (R25, R183), and the way from the words on lane C to the Pending
List (R22, R26, R31, R33).
-/

namespace Sys2Proof.Machine

open Sys2Proof

/-! ### Codes and fields read back (R183, 11.3) -/

@[simp] theorem byteAt_cons_zero (b : Byte) (l : List Byte) : byteAt (b :: l) 0 = b.toNat := rfl

@[simp] theorem byteAt_cons_succ (b : Byte) (l : List Byte) (i : Nat) : byteAt (b :: l) (i + 1) = byteAt l i := rfl

theorem byte_value {n : Nat} (h : n < 256) : n % 256 = n := Nat.mod_eq_of_lt h

theorem field_value {n : Nat} (h : n < 65536) : n / 256 % 256 * 256 + n % 256 = n := by omega

@[simp] theorem decodeMe_code (x : Me) : decodeMe (x.code % 256) = some x := by cases x <;> rfl

@[simp] theorem decodeEngine_code (x : EngineId) : decodeEngine (x.code % 256) = some x := by cases x <;> rfl

@[simp] theorem decodeStyle_code (x : Style) : decodeStyle (x.code % 256) = some x := by cases x <;> rfl

@[simp] theorem decodeMatte_code (x : Matte) : decodeMatte (x.code % 256) = some x := by cases x <;> rfl

@[simp] theorem decodeSubstitute_code (x : Substitute) : decodeSubstitute (x.code % 256) = some x := by
  cases x <;> rfl

@[simp] theorem decodeKeyType_code (x : KeyType) : decodeKeyType (x.code % 256) = some x := by cases x <;> rfl

@[simp] theorem decodeFormat_code (x : Format) : decodeFormat (x.code % 256) = some x := by cases x <;> rfl

@[simp] theorem decodeShapeKind_code (x : ShapeKind) : decodeShapeKind (x.code % 256) = some x := by cases x <;> rfl

@[simp] theorem decodeConditionKind_code (x : ConditionKind) : decodeConditionKind (x.code % 256) = some x := by
  cases x <;> rfl

@[simp] theorem decodeCheckMode_code (x : CheckMode) : decodeCheckMode (x.code % 256) = some x := by cases x <;> rfl

@[simp] theorem decodeBool_bitAt (b : Bool) : decodeBool (bitAt b 1 % 256) = some b := by cases b <;> rfl

@[simp] theorem decodeNextSel_code (x : NextSel) : decodeNextSel (x.code % 256) = some x := by
  obtain ⟨a, b, c, d⟩ := x
  cases a <;> cases b <;> cases c <;> cases d <;> rfl

@[simp] theorem decodeTableSet_code (x : TableSet) : decodeTableSet (x.code % 256) = some x := by
  obtain ⟨a, b, c⟩ := x
  cases a <;> cases b <;> cases c <;> rfl

@[simp] theorem decodeEnables_code (x : Enables) : decodeEnables (x.code % 256) = some x := by
  obtain ⟨a, b, c⟩ := x
  cases a <;> cases b <;> cases c <;> rfl

@[simp] theorem decodeSourceRecord_code (x : SourceRecord) : decodeSourceRecord (x.code % 256) = some x := by
  obtain ⟨a, b, c⟩ := x
  cases a <;> cases b <;> cases c <;> rfl

theorem decodeMap_toNat {k : Nat} (x : BitVec k) : decodeMap k x.toNat = some x := by
  rw [decodeMap, if_pos x.isLt, BitVec.ofNat_toNat, BitVec.setWidth_eq]

@[simp] theorem decodeMap_engineSet (x : EngineSet) : decodeMap 5 (x.toNat % 256) = some x := by
  have h : x.toNat < 32 := x.isLt
  rw [byte_value (by omega), decodeMap_toNat]

theorem decodeMaskShape_code {x : Option Nat} (h : ∀ n, x = some n → n ≤ 15) :
    decodeMaskShape (x.getD 255 % 256) = x := by
  cases x with
  | none => rfl
  | some n =>
    have := h n rfl
    rw [Option.getD_some, byte_value (by omega), decodeMaskShape, if_neg (by omega)]

theorem decodeMonPoint_code {x : MonPoint} (h : ∀ n, x = .source n → n ≤ 30) :
    decodeMonPoint (x.code % 256) = some x := by
  cases x with
  | source n =>
    have := h n rfl
    rw [MonPoint.code, byte_value (by omega)]
    exact if_pos this
  | _ => rfl

theorem decodeCheckPoint_code {x : CheckPoint} (h : ∀ n, x = .lane n → 1 ≤ n ∧ n ≤ 24) :
    decodeCheckPoint (x.code % 256) = some x := by
  cases x with
  | lane n =>
    have := h n rfl
    rw [CheckPoint.code, byte_value (by omega)]
    exact if_pos this
  | _ => rfl

/-- The points of a LOAD CURVE as they stand in its payload (11.4). -/
theorem fieldAt_points (points : List Nat) (h : ∀ x ∈ points, x ≤ 1024) (i : Nat) (hi : i < points.length) :
    fieldAt (points.flatMap fieldBytes) (2 * i) = points[i] := by
  induction points generalizing i with
  | nil => exact absurd hi (Nat.not_lt_zero i)
  | cons x points ih =>
    rw [List.flatMap_cons]
    cases i with
    | zero =>
      have := h x List.mem_cons_self
      exact (fieldAt_fieldBytes x _).trans (Nat.mod_eq_of_lt (by omega))
    | succ i =>
      rw [show 2 * (i + 1) = (fieldBytes x).length + 2 * i by simp [fieldBytes]; omega, fieldAt_append_right,
        ih (fun y hy => h y (List.mem_cons_of_mem _ hy)) i (Nat.lt_of_succ_lt_succ hi)]
      rfl

/-! ### A command read back from its bytes (R25, 11.4) -/

section
variable {p : List Byte} {c : Command} (hk : byteAt p 0 = c.code) (hp : ∀ i, byteAt p (i + 6) = byteAt c.params i)
include hk hp

/-- A payload of a command's kind and parameters is read as that command, where its values are in their sets. -/
theorem decodeCommand_of_params (hr : inValueSets c) (hc : c.clamp = c) : decodeCommand p = some c := by
  cases c
  all_goals
    simp only [decodeCommand, hk, Command.code, fieldAt, hp] <;>
      simp [Command.params, byteOf_toNat, fieldBytes]
  case select =>
    obtain ⟨hb, hs⟩ := hr
    omega
  case setTransition e t =>
    obtain ⟨h1, h2, h3⟩ := hr
    cases t
    simp [Command.clamp] at h1 h2 h3 hc ⊢
    omega
  case lever => simp [Command.clamp] at hc; omega
  case force => simp [Command.clamp] at hc; omega
  case setKey n k =>
    obtain ⟨h1, h2, h3, h4, h5⟩ := hr
    rw [decodeMaskShape_code h4]
    cases k
    simp [Command.clamp, clamp_eq_self_iff] at h1 h2 h3 h5 hc ⊢
    omega
  case setMatte m c =>
    cases c
    simp [Command.clamp, clamp_eq_self_iff] at hc ⊢
    omega
  case setLane n l =>
    obtain ⟨h1, h2, h3, h4⟩ := hr
    cases l
    simp [Command.clamp] at h3 h4 hc ⊢
    omega
  case reseek lanes =>
    have hlong : longAt p 6 = longAt (longBytes lanes.toNat) 0 := by
      simp only [longAt, fieldAt]
      exact congrArg₂ (· * 65536 + ·) (congrArg₂ (· * 256 + ·) (hp 0) (hp 1)) (congrArg₂ (· * 256 + ·) (hp 2) (hp 3))
    have hvalue := longAt_longBytes lanes.toNat []
    rw [List.append_nil, Nat.mod_eq_of_lt lanes.isLt] at hvalue
    rw [hlong, hvalue, BitVec.ofNat_toNat, BitVec.setWidth_eq]
  case loadShape n r =>
    obtain ⟨h1, h2, h3, h4, h5⟩ := hr
    cases r
    simp at h2 h3 h4 h5 ⊢
    omega
  case loadCurve n first points =>
    obtain ⟨h1, h2, h3, h4, h5⟩ := hr
    have hle : ∀ x ∈ points, x ≤ 1024 := by
      simp only [Command.clamp, Command.loadCurve.injEq, true_and] at hc
      intro x hx
      rw [← hc] at hx
      obtain ⟨y, -, rfl⟩ := List.mem_map.1 hx
      exact Nat.min_le_right _ _
    refine ⟨by omega, by omega, ?_⟩
    rw [byte_value (by omega)]
    refine List.ext_getElem (length_curvePoints p _) fun i _ hi => ?_
    have hfield : fieldAt p (9 + 2 * i) = fieldAt (points.flatMap fieldBytes) (2 * i) := by
      refine Eq.trans ?_ (fieldAt_append_right [byteOf n, byteOf first, byteOf points.length] _ (2 * i))
      exact congrArg₂ (· * 256 + ·) (by rw [show 9 + 2 * i = 3 + 2 * i + 6 by omega]; exact hp _)
        (by rw [show 9 + 2 * i + 1 = 3 + 2 * i + 1 + 6 by omega]; exact hp _)
    rw [← fieldAt_points points hle i hi, ← hfield]
    simp [curvePoints]
  case loadSource => exact Nat.lt_of_le_of_lt hr (by decide)
  case setMonitor point => simp [decodeMonPoint_code hr]
  case checkerStart point mode => simp [decodeCheckPoint_code hr]
  case clearConditionsOne => exact Nat.lt_of_le_of_lt hr (by decide)
  case setReports enables mask =>
    have h : mask.toNat < 2048 := mask.isLt
    rw [field_value (by omega), decodeMap_toNat]
    rfl
  case purgeTag tag => rw [field_value tag.isLt, BitVec.ofNat_toNat, BitVec.setWidth_eq]
  case bypass source =>
    cases source with
    | none => rfl
    | some n =>
      have hn : n ≤ 28 := hr n rfl
      rw [Option.getD_some, byte_value (by omega), if_neg (by omega)]

end

/-! ### The payload of a command (R25) -/

/-- The bytes of R25's header (11.4). -/
def headerBytes (tag : Tag) (due : Option FieldNo) (c : Command) : List Byte :=
  [byteOf c.code, byteOf (tag.toNat / 256), byteOf tag.toNat, byteOf (if due.isSome then 1 else 0),
    byteOf ((due.getD 0).toNat / 256), byteOf (due.getD 0).toNat]

section
variable (tag : Tag) (due : Option FieldNo) (c : Command)

theorem encodePayload_eq : encodePayload tag due c = headerBytes tag due c ++ c.params := rfl

theorem byteAt_encodePayload_params (i : Nat) : byteAt (encodePayload tag due c) (i + 6) = byteAt c.params i := by
  rw [encodePayload_eq, Nat.add_comm]
  exact byteAt_append_right (headerBytes tag due c) c.params i

theorem command_code_bounds : 1 ≤ c.code ∧ c.code ≤ 27 := by cases c <;> simp [Command.code]

theorem byteAt_encodePayload_kind : byteAt (encodePayload tag due c) 0 = c.code := by
  have h := (command_code_bounds c).2
  exact (byteOf_toNat c.code).trans (Nat.mod_eq_of_lt (by omega))

theorem tagOf_encodePayload : tagOf (encodePayload tag due c) = tag := by
  have h : fieldAt (encodePayload tag due c) 1 = tag.toNat / 256 % 256 * 256 + tag.toNat % 256 :=
    congrArg₂ (· * 256 + ·) (byteOf_toNat _) (byteOf_toNat _)
  rw [tagOf, h, field_value tag.isLt, BitVec.ofNat_toNat, BitVec.setWidth_eq]

theorem timingOf_encodePayload : timingOf (encodePayload tag due c) = some due := by
  have h3 : byteAt (encodePayload tag due c) 3 = if due.isSome then 1 else 0 := by cases due <;> rfl
  have h4 : fieldAt (encodePayload tag due c) 4 = (due.getD 0).toNat / 256 % 256 * 256 + (due.getD 0).toNat % 256 :=
    congrArg₂ (· * 256 + ·) (byteOf_toNat _) (byteOf_toNat _)
  rw [timingOf_eq, h3, h4, field_value (due.getD 0).isLt, BitVec.ofNat_toNat, BitVec.setWidth_eq]
  cases due <;> rfl

theorem length_encodePayload : (encodePayload tag due c).length = 6 + c.params.length := by
  rw [encodePayload_eq, List.length_append]; rfl

end

theorem length_flatMap_fieldBytes (points : List Nat) : (points.flatMap fieldBytes).length = 2 * points.length := by
  induction points with
  | nil => rfl
  | cons x points ih => rw [List.flatMap_cons, List.length_append, ih]; simp [fieldBytes]; omega

/-- The length that the kind of a command calls for is that of its payload (11.4). -/
theorem payloadLength_encodePayload (tag : Tag) (due : Option FieldNo) {c : Command} (hr : inValueSets c) :
    payloadLength (encodePayload tag due c) = some (encodePayload tag due c).length := by
  have h8 := byteAt_encodePayload_params tag due c 2
  rw [payloadLength, byteAt_encodePayload_kind, length_encodePayload]
  cases c with
  | loadCurve n first points =>
    obtain ⟨-, -, -, h4, -⟩ := hr
    have hlen : (Command.loadCurve n first points).params.length = 3 + 2 * points.length := by
      simp only [Command.params, List.length_append, length_flatMap_fieldBytes, List.length_cons, List.length_nil]
    have hcount : byteAt (Command.loadCurve n first points).params 2 = points.length :=
      (byteOf_toNat _).trans (Nat.mod_eq_of_lt (by omega))
    rw [hlen, h8, hcount]
    exact (if_neg (by omega)).trans (congrArg some (by omega))
  | _ => rfl

theorem length_params_le {c : Command} (hr : inValueSets c) : c.params.length ≤ 69 := by
  cases c with
  | loadCurve n first points =>
    obtain ⟨-, -, -, h4, -⟩ := hr
    simp only [Command.params, List.length_append, length_flatMap_fieldBytes, List.length_cons, List.length_nil]
    omega
  | _ => simp [Command.params, fieldBytes, longBytes]

/-- An encoded command passes the tests of R26 as that command. -/
theorem validate_encodePayload (tag : Tag) (due : Option FieldNo) {c : Command} (h : c.admissible = true) :
    validate (encodePayload tag due c) = .passed c due := by
  obtain ⟨hr, hl, hc⟩ := (Command.admissible_iff c).1 h
  have hsets := (commandInRange_iff c).1 hr
  have hkind := command_code_bounds c
  rw [← byteAt_encodePayload_kind tag due c] at hkind
  rw [(validate_tested hkind.1 hkind.2 (payloadLength_encodePayload tag due hsets)).2 due c
    (timingOf_encodePayload tag due c) (decodeCommand_of_params (byteAt_encodePayload_kind tag due c)
      (byteAt_encodePayload_params tag due c) hsets hc), hr, hl]
  rfl

/-- Settles O29: the header and the parameters are read back one by one. -/
theorem encodedCommandIsReadBack : Obligations.EncodedCommandIsReadBack := by
  intro tag due c h
  have hlen := length_params_le ((commandInRange_iff c).1 ((Command.admissible_iff c).1 h).1)
  refine ⟨validate_encodePayload tag due h, tagOf_encodePayload tag due c, byteAt_encodePayload_kind tag due c, ?_, ?_⟩ <;>
    rw [length_encodePayload] <;> omega

/-- Settles O30: the framed packet is accepted, read back, classified and inserted. -/
theorem queuedCommandReachesTheList : Obligations.QueuedCommandReachesTheList := by
  intro tag x c s hadm ha hs htaken hroom hahead
  obtain ⟨hv, htag, -, h6, h75⟩ := encodedCommandIsReadBack tag (some x) c hadm
  have hc := ((Command.admissible_iff c).1 hadm).2.2
  refine ⟨_, framedPacketIsACommandArrival _ s hs htaken h6 (by omega), ?_⟩
  generalize hu : ({ s with
    receiver := { s.receiver with taken := s.receiver.taken + 1, inReception := none } } : State) = u
  have harrive := u.arrive_queued hv ha
  rw [hc, bne_self_eq_false, htag, u.classify_offers tag c false (x := x) (late := false)
    (.inr (.inl ⟨x, rfl, by rw [← hu]; exact hahead, rfl, rfl⟩))] at harrive
  rw [harrive]
  obtain ⟨hfull, -⟩ | ⟨-, hframe, hentries, -⟩ := u.offer_cases tag c x false false
  · rw [← hu] at hfull
    exact absurd hfull (Nat.not_le.2 hroom)
  · refine ⟨by rw [hframe, ← hu], by rw [hframe, ← hu], ?_⟩
    rw [hentries, ← hu]
    exact insertEntry_inPlace _ _ _

end Sys2Proof.Machine
end

section
/-!
RESULTS. The transition engines: TAKE, CUT, HOLD, RESUME, RELEASE and FORCE (R37, R83 to R87, R89, R101, R103), by
what each does to one engine.
-/

namespace Sys2Proof.Machine

open Sys2Proof

/-! ### Commands to a set of engines (R37, R89) -/

/-- What HOLD does to engine `e` (R86). -/
def State.holdAct (s : State) (tag : Tag) (e : EngineId) : EngineAct :=
  if (s.engine e).state = .auto then .becomes { s.engine e with state := .paused }
  else .posts ⟨tag, 6, .notRunning, e.code⟩

/-- What RESUME does to engine `e` (R87). -/
def State.resumeAct (s : State) (tag : Tag) (e : EngineId) : EngineAct :=
  if (s.engine e).state = .paused then .becomes { s.engine e with state := .auto }
  else .posts ⟨tag, 7, .notRunning, e.code⟩

/-- What RELEASE does to engine `e` (R103). -/
def State.releaseAct (s : State) (e : EngineId) : EngineAct := .becomes { s.engine e with force := none }

theorem State.holdOne_act (s : State) (tag : Tag) (e : EngineId) :
    State.holdOne tag s e = s.act e (s.holdAct tag e) := by
  unfold State.holdOne State.holdAct
  cases (s.engine e).state <;> rfl

theorem State.resumeOne_act (s : State) (tag : Tag) (e : EngineId) :
    State.resumeOne tag s e = s.act e (s.resumeAct tag e) := by
  unfold State.resumeOne State.resumeAct
  cases (s.engine e).state <;> rfl

section
variable (s : State) (tag : Tag) (set : EngineSet)

theorem State.takeAct_belongsTo (e : EngineId) (r : RunRecord) (h : s.takeAct tag e = .completes r) :
    r.belongsTo e := by
  unfold State.takeAct at h
  split at h
  · split at h
    · cases h
    · split at h <;> cases h
      exact s.latch_belongsTo e .auto
  · cases h

theorem State.take_acted :
    s.Acted (s.deliver tag (.take set)) EngineId.all fun e => if e.isIn set then s.takeAct tag e else .rests :=
  s.forEngines_acted set _ (fun u e => u.takeAct tag e) (fun u e => u.takeOne_act tag e)
    (fun _ _ h => h.takeAct tag) (s.takeAct_belongsTo tag)

theorem State.cut_acted (h : s.engines.wf) :
    s.Acted (s.deliver tag (.cut set)) EngineId.all fun e => if e.isIn set then s.cutAct tag e else .rests := by
  refine s.forEngines_acted set _ (fun u e => u.cutAct tag e) (fun u e => u.cutOne_act tag e)
    (fun _ _ h => h.cutAct tag) fun e r ha => ?_
  unfold State.cutAct at ha
  split at ha
  · split at ha <;> cases ha
    exact s.latch_belongsTo e .auto
  · split at ha <;> cases ha
    exact (h.1 e).belongs ‹_›

theorem State.hold_acted :
    s.Acted (s.deliver tag (.hold set)) EngineId.all fun e => if e.isIn set then s.holdAct tag e else .rests := by
  refine s.forEngines_acted set _ (fun u e => u.holdAct tag e) (fun u e => u.holdOne_act tag e)
    (fun _ _ h => by simp only [State.holdAct, h.engine]) fun e r ha => ?_
  unfold State.holdAct at ha
  split at ha <;> cases ha

theorem State.resume_acted :
    s.Acted (s.deliver tag (.resume set)) EngineId.all fun e => if e.isIn set then s.resumeAct tag e else .rests := by
  refine s.forEngines_acted set _ (fun u e => u.resumeAct tag e) (fun u e => u.resumeOne_act tag e)
    (fun _ _ h => by simp only [State.resumeAct, h.engine]) fun e r ha => ?_
  unfold State.resumeAct at ha
  split at ha <;> cases ha

theorem State.release_acted :
    s.Acted (s.deliver tag (.release set)) EngineId.all fun e => if e.isIn set then s.releaseAct e else .rests :=
  s.forEngines_acted set _ State.releaseAct (fun _ _ => rfl) (fun _ _ h => by simp only [State.releaseAct, h.engine])
    nofun

end

/-- Where no run completes, engines and reports alone change (R37). -/
theorem State.Acted.frame_of_none_completes {s t : State} {es : List EngineId} {acts : EngineId → EngineAct}
    (h : s.Acted t es acts) (hn : ∀ e r, acts e ≠ .completes r) :
    t = { s with engines := t.engines, reports := t.reports } := by
  have hx : ∀ e, (acts e).exchanges = false := fun e => by
    cases ha : acts e with
    | completes r => exact absurd ha (hn e r)
    | _ => rfl
  have hmatrix : t.matrix = s.matrix := by rw [h.matrix]; simp [hx]
  have hkeyers : t.keyers = s.keyers :=
    ext_look Keyer.reset fun n hn8 => h.kept n (Nat.le_of_lt_succ hn8) fun e r _ ha => absurd ha (hn e r)
  have hftb : t.ftb = s.ftb := by
    rw [h.ftb]
    cases ha : acts .ftb with
    | completes r => exact absurd ha (hn _ r)
    | _ => rfl
  conv_lhs => rw [h.frame, hmatrix, hkeyers, hftb]

theorem engineSet_inValueSets {set : EngineSet} (h : set ≠ 0#5) : ∃ e : EngineId, e.isIn set = true :=
  (engineSet_inRange_iff set).1 (bne_iff_ne.2 h)

/-! ### HOLD, RESUME, RELEASE and FORCE (R86, R87, R101, R103) -/

/-- Settles O38: each engine of the set by its state. -/
theorem holdResumeReleaseAndForce : Obligations.HoldResumeReleaseAndForce := by
  refine ⟨fun tag set s hset => ⟨?_, ?_, ?_⟩, fun tag e value s => ?_⟩
  · rw [exec_plain (c := .hold set) rfl s (engineSet_inValueSets hset) rfl rfl]
    have h := s.hold_acted tag set
    refine ⟨_, rfl, h.frame_of_none_completes fun e r => ?_, fun e => ?_, h.reports.trans (foldl_posts _ _ _
      (fun e => ⟨tag, 6, .notRunning, e.code⟩) _ (fun e => ?_) (fun e y => ?_) _)⟩
    · unfold State.holdAct; split <;> [split; skip] <;> nofun
    · rw [h.inside e (EngineId.mem_all e)]
      cases hin : e.isIn set
      · simp
      · by_cases ha : (s.engine e).state = .auto <;> simp [State.holdAct, ha]
    · simp +contextual [State.holdAct]
    · cases hin : e.isIn set <;> simp +contextual [State.holdAct]
  · rw [exec_plain (c := .resume set) rfl s (engineSet_inValueSets hset) rfl rfl]
    have h := s.resume_acted tag set
    refine ⟨_, rfl, h.frame_of_none_completes fun e r => ?_, fun e => ?_, h.reports.trans (foldl_posts _ _ _
      (fun e => ⟨tag, 7, .notRunning, e.code⟩) _ (fun e => ?_) (fun e y => ?_) _)⟩
    · unfold State.resumeAct; split <;> [split; skip] <;> nofun
    · rw [h.inside e (EngineId.mem_all e)]
      cases hin : e.isIn set
      · simp
      · by_cases ha : (s.engine e).state = .paused <;> simp [State.resumeAct, ha]
    · simp +contextual [State.resumeAct]
    · cases hin : e.isIn set <;> simp +contextual [State.resumeAct]
  · rw [exec_plain (c := .release set) rfl s (engineSet_inValueSets hset) rfl rfl]
    have h := s.release_acted tag set
    have hframe := h.frame_of_none_completes fun e r => by split <;> nofun
    have hreports : (s.deliver tag (.release set)).reports = s.reports := by
      refine h.reports.trans ((foldl_posts _ _ (fun _ => false) (fun e => ⟨tag, 0, .notRunning, e.code⟩) _ nofun
        (fun e y _ => by split <;> nofun) _).trans ?_)
      simp
    rw [hreports] at hframe
    refine ⟨_, rfl, hframe, fun e => ?_⟩
    rw [h.inside e (EngineId.mem_all e)]
    cases hin : e.isIn set <;> simp [State.releaseAct]
  · have hclamped : (Command.force e value).clamp ≠ .force e value ↔ 1024 < value := by simp [Command.clamp]
    rw [exec_clamped (c := .force e value) rfl s trivial rfl hclamped]
    exact ⟨_, rfl, rfl, State.engine_setEngine_same _ _ _, fun f hf => State.engine_setEngine_ne _ hf.symm _, rfl⟩

/-! ### TAKE and CUT (R78, R79, R82 to R85) -/

/-- The elements of a latch, engine by engine (R78, R79, R82). -/
theorem State.nextElements_iff (s : State) (e : EngineId) (n : Nat) (d : Direction) :
    ((s.nextElements e).bkgd = true ↔ e.isMe = true ∧ (s.engine e).sel.bkgd = true) ∧
    ((n, d) ∈ (s.nextElements e).keys ↔
      d = (if (s.keyer n).onAir then .off else .on) ∧
      ((e.isMe = true ∧
          (n = 3 * e.code ∧ (s.engine e).sel.k1 = true ∨ n = 3 * e.code + 1 ∧ (s.engine e).sel.k2 = true ∨
            n = 3 * e.code + 2 ∧ (s.engine e).sel.k3 = true)) ∨
        (e = .dsk1 ∧ n = 6) ∨ (e = .dsk2 ∧ n = 7))) ∧
    (s.nextElements e).fade =
      if e = .ftb then some (if s.ftb = .clear then .toBlack else .fromBlack) else none := by
  have hkeys : ∀ (sel : NextSel) (b : Nat), (n, d) ∈ (sel.keys b).map (fun n => (n, s.keyDirection n)) ↔
      d = (if (s.keyer n).onAir then .off else .on) ∧
        (n = b ∧ sel.k1 = true ∨ n = b + 1 ∧ sel.k2 = true ∨ n = b + 2 ∧ sel.k3 = true) := by
    intro sel b
    have hmem : n ∈ sel.keys b ↔ n = b ∧ sel.k1 = true ∨ n = b + 1 ∧ sel.k2 = true ∨ n = b + 2 ∧ sel.k3 = true := by
      obtain ⟨bk, k1, k2, k3⟩ := sel
      cases k1 <;> cases k2 <;> cases k3 <;> simp [NextSel.keys]
    rw [← hmem, List.mem_map]
    constructor
    · rintro ⟨m, hm, heq⟩
      cases heq
      exact ⟨rfl, hm⟩
    · rintro ⟨rfl, hm⟩
      exact ⟨n, hm, rfl⟩
  cases e with
  | me1 =>
    refine ⟨by simp [State.nextElements, EngineId.isMe], ?_, rfl⟩
    simpa [State.nextElements, EngineId.firstKeyer, EngineId.isMe, EngineId.code] using hkeys (s.engine .me1).sel 0
  | me2 =>
    refine ⟨by simp [State.nextElements, EngineId.isMe], ?_, rfl⟩
    simpa [State.nextElements, EngineId.firstKeyer, EngineId.isMe, EngineId.code] using hkeys (s.engine .me2).sel 3
  | dsk1 | dsk2 =>
    refine ⟨by simp [State.nextElements, EngineId.isMe], ?_, rfl⟩
    simp only [State.nextElements, EngineId.firstKeyer, List.mem_singleton, Prod.mk.injEq]
    constructor
    · rintro ⟨rfl, rfl⟩; simp [State.keyDirection]
    · rintro ⟨rfl, h⟩
      simp [EngineId.isMe] at h
      subst h
      exact ⟨rfl, rfl⟩
  | ftb => exact ⟨by simp [State.nextElements, EngineId.isMe], by simp [State.nextElements, EngineId.isMe], rfl⟩

section
variable (s : State) (tag : Tag) (e : EngineId)

theorem State.takeAct_refused (h : (s.engine e).state ≠ .idle ∨ s.nothingNext e = true) :
    s.takeAct tag e = .posts ⟨tag, 4, if (s.engine e).state = .idle then .emptyNext else .busy, e.code⟩ := by
  unfold State.takeAct
  split
  · next hs => rw [if_pos (h.resolve_left (not_not.2 hs))]
  · rfl

theorem State.takeAct_rate0 (hs : (s.engine e).state = .idle) (hn : s.nothingNext e = false)
    (hr : (s.engine e).next.rate = 0) : s.takeAct tag e = .completes (s.latch e .auto) := by
  rw [State.takeAct, if_pos hs, if_neg (by simp [hn]), if_pos hr]

theorem State.takeAct_starts (hs : (s.engine e).state = .idle) (hn : s.nothingNext e = false)
    (hr : (s.engine e).next.rate ≠ 0) :
    s.takeAct tag e =
      .becomes { s.engine e with state := .auto, j := 0, q := 0, run := some (s.latch e .auto) } := by
  rw [State.takeAct, if_pos hs, if_neg (by simp [hn]), if_neg hr]

theorem State.cutAct_idle (hs : (s.engine e).state = .idle) (hn : s.nothingNext e = false) :
    s.cutAct tag e = .completes (s.latch e .auto) := by
  rw [State.cutAct, if_pos hs, if_neg (by simp [hn])]

theorem State.cutAct_empty (hs : (s.engine e).state = .idle) (hn : s.nothingNext e = true) :
    s.cutAct tag e = .posts ⟨tag, 5, .emptyNext, e.code⟩ := by
  rw [State.cutAct, if_pos hs, if_pos hn]

theorem State.cutAct_running (hs : (s.engine e).state ≠ .idle) {r : RunRecord} (hr : (s.engine e).run = some r) :
    s.cutAct tag e = .completes r := by
  rw [State.cutAct, if_neg hs, hr]

end

/-- A TAKE said of every engine: those that start or complete, and those refused (R37, R83, R84). -/
theorem State.take_effect (s : State) (tag : Tag) (set : EngineSet) {starts : EngineId → Bool}
    (hstarts : ∀ e, starts e = (e.isIn set && (s.engine e).state == .idle && !s.nothingNext e)) {t : State}
    (ht : t = s.deliver tag (.take set)) :
    s.completedRuns t (fun e => starts e && (s.engine e).next.rate == 0) s.nextElements ∧
      (∀ e, starts e = true → (s.engine e).next.rate ≠ 0 →
        t.engine e = { s.engine e with state := .auto, j := 0, q := 0, run := some (s.latch e .auto) }) ∧
      (∀ e, starts e = false → t.engine e = s.engine e) ∧
      t.reports =
        (EngineId.all.filter fun e => e.isIn set && !starts e).foldl
          (fun r e => r.notice ⟨tag, 4, if (s.engine e).state = .idle then .emptyNext else .busy, e.code⟩ s.timing.field)
          s.reports := by
  have h : s.Acted t EngineId.all _ := ht ▸ s.take_acted tag set
  have hstart : ∀ e, starts e = true → e.isIn set = true ∧ (s.engine e).state = .idle ∧ s.nothingNext e = false :=
    fun e he => by simpa [and_assoc] using (hstarts e).symm.trans he
  have hrefused : ∀ e, starts e = false → e.isIn set = true →
      s.takeAct tag e = .posts ⟨tag, 4, if (s.engine e).state = .idle then .emptyNext else .busy, e.code⟩ :=
    fun e he hin => s.takeAct_refused tag e (by
      rw [hstarts, hin] at he
      by_cases hs : (s.engine e).state = .idle
      · simpa [hs] using he
      · exact .inl hs)
  refine ⟨h.completedRuns _ _ _ _ _ (fun e he => ?_) (fun e r he => ?_), fun e he hr => ?_, fun e he => ?_,
    h.reports.trans (foldl_posts _ _ _ (fun e => ⟨tag, 4, _, e.code⟩) _ (fun e he => ?_) (fun e y he => ?_) _)⟩
  · obtain ⟨he, hr⟩ := Bool.and_eq_true_iff.1 he
    obtain ⟨hin, hs, hn⟩ := hstart e he
    exact ⟨_, (if_pos hin).trans (s.takeAct_rate0 tag e hs hn (beq_iff_eq.1 hr)), rfl⟩
  · split at he
    · next hin =>
      cases hst : starts e with
      | false => rw [hrefused e hst hin] at he; cases he
      | true =>
        obtain ⟨-, hs, hn⟩ := hstart e hst
        by_cases hr : (s.engine e).next.rate = 0
        · simp [hr]
        · rw [s.takeAct_starts tag e hs hn hr] at he; cases he
    · cases he
  · obtain ⟨hin, hs, hn⟩ := hstart e he
    rw [h.inside e (EngineId.mem_all e), if_pos hin, s.takeAct_starts tag e hs hn hr]
  · rw [h.inside e (EngineId.mem_all e)]
    cases hin : e.isIn set with
    | true => rw [if_pos rfl, hrefused e he hin]
    | false => rfl
  · obtain ⟨hin, hst⟩ := Bool.and_eq_true_iff.1 he
    exact (if_pos hin).trans (hrefused e (by simpa using hst) hin)
  · intro hy
    cases hin : e.isIn set with
    | false => rw [hin] at hy; cases hy
    | true =>
      obtain ⟨-, hs, hn⟩ := hstart e (by simpa [hin] using he)
      rw [hin, if_pos rfl] at hy
      by_cases hr : (s.engine e).next.rate = 0
      · rw [s.takeAct_rate0 tag e hs hn hr] at hy; cases hy
      · rw [s.takeAct_starts tag e hs hn hr] at hy; cases hy

/-- Settles O36: the elements of a latch, and a TAKE of engines whose rates are 1 or more. -/
theorem takeStartsEachIdleEngine : Obligations.TakeStartsEachIdleEngine := by
  refine ⟨State.nextElements_iff, fun tag set s hset hrate => ?_⟩
  rw [exec_plain (c := .take set) rfl s (engineSet_inValueSets hset) rfl rfl]
  refine ⟨_, rfl, ?_⟩
  obtain ⟨-, hstart, hrest, hreports⟩ := s.take_effect tag set (fun _ => rfl) rfl
  have hframe := (s.take_acted tag set).frame_of_none_completes fun e r he => by
    split at he
    · next hin =>
      by_cases hn : (s.engine e).state ≠ .idle ∨ s.nothingNext e = true
      · rw [s.takeAct_refused tag e hn] at he; cases he
      · obtain ⟨hs, hn⟩ := not_or.1 hn
        rw [s.takeAct_starts tag e (not_not.1 hs) (Bool.eq_false_iff.2 hn) (hrate e hin)] at he; cases he
    · cases he
  refine ⟨hframe, fun e => ⟨fun hin hs hn => hstart e (by simp [hin, hs, hn]) (hrate e hin), fun h => hrest e ?_⟩, ?_⟩
  · rcases h with h | h | h <;> simp [h]
  · rw [hreports]
    congr 1
    refine List.filter_congr fun e _ => ?_
    cases e.isIn set <;> simp [bne]

/-- A command to one engine alone (R37). -/
theorem State.forEngines_single {set : EngineSet} {e : EngineId} (h : ∀ f : EngineId, f.isIn set = decide (f = e))
    (s : State) (f : State → EngineId → State) : s.forEngines set f = f s e := by
  simp only [State.forEngines, EngineId.all, h, List.foldl_cons, List.foldl_nil]
  cases e <;> rfl

/-- A CUT said of every engine (R37, R85, R89). -/
theorem State.cut_effect (s : State) (tag : Tag) (set : EngineSet) (hw : s.engines.wf) {t : State}
    (ht : t = s.deliver tag (.cut set)) :
    s.completedRuns t (fun e => e.isIn set && !s.refusesEmpty e) s.cutElements ∧
      (∀ e : EngineId, e.isIn set = false ∨ s.refusesEmpty e = true → t.engine e = s.engine e) ∧
      t.reports =
        (EngineId.all.filter fun e => e.isIn set && s.refusesEmpty e).foldl
          (fun r e => r.notice ⟨tag, 5, .emptyNext, e.code⟩ s.timing.field) s.reports := by
  have h : s.Acted t EngineId.all _ := ht ▸ s.cut_acted tag set hw
  have hrefused : ∀ e, s.refusesEmpty e = true → s.cutAct tag e = .posts ⟨tag, 5, .emptyNext, e.code⟩ := fun e he => by
    obtain ⟨hs, hn⟩ := Bool.and_eq_true_iff.1 he
    exact s.cutAct_empty tag e (beq_iff_eq.1 hs) hn
  have hcompletes : ∀ e, s.refusesEmpty e = false →
      ∃ r, s.cutAct tag e = .completes r ∧ r.elements = s.cutElements e := fun e he => by
    by_cases hs : (s.engine e).state = .idle
    · refine ⟨_, s.cutAct_idle tag e hs (by simpa [State.refusesEmpty, hs] using he), ?_⟩
      have hrun : (s.engine e).run = none := ((hw.1 e).idle_fields hs).1
      rw [State.cutElements, hrun]
      rfl
    · obtain ⟨r, hr⟩ : ∃ r, (s.engine e).run = some r := (hw.1 e).run_isSome hs
      refine ⟨r, s.cutAct_running tag e hs hr, ?_⟩
      rw [State.cutElements, hr]
  refine ⟨h.completedRuns _ _ _ _ _ (fun e he => ?_) (fun e r he => ?_), fun e he => ?_,
    h.reports.trans (foldl_posts _ _ _ (fun e => ⟨tag, 5, .emptyNext, e.code⟩) _ (fun e he => ?_) (fun e y he => ?_) _)⟩
  · obtain ⟨hin, hr⟩ := Bool.and_eq_true_iff.1 he
    obtain ⟨r, hr, helements⟩ := hcompletes e (by simpa using hr)
    exact ⟨r, (if_pos hin).trans hr, helements⟩
  · split at he
    · next hin =>
      rw [hin, Bool.true_and, Bool.not_eq_true']
      refine Bool.eq_false_iff.2 fun hr => ?_
      rw [hrefused e hr] at he; cases he
    · cases he
  · rw [h.inside e (EngineId.mem_all e)]
    cases hin : e.isIn set with
    | true => rw [if_pos rfl, hrefused e (he.resolve_left (by simp [hin]))]
    | false => rfl
  · obtain ⟨hin, hr⟩ := Bool.and_eq_true_iff.1 he
    exact (if_pos hin).trans (hrefused e hr)
  · intro hy
    cases hin : e.isIn set with
    | false => rw [hin] at hy; cases hy
    | true =>
      obtain ⟨r, hr, -⟩ := hcompletes e (by simpa [hin] using he)
      rw [hin, if_pos rfl, hr] at hy; cases hy

/-- Settles O37: one engine by what CUT does to it, several by the effects of CUT and TAKE on each. -/
theorem cutCompletesTheRun : Obligations.CutCompletesTheRun := by
  refine ⟨fun tag set e s hset => ?_, fun tag set s hset hw => ?_, fun tag set s starts hset hstarts => ?_⟩
  · have hin : ∃ e : EngineId, e.isIn set = true := ⟨e, by simp [hset]⟩
    have hcut : exec (.cut tag set) s = .next (s.act e (s.cutAct tag e)) := by
      rw [exec_plain (c := .cut set) rfl s hin rfl rfl, State.deliver, State.forEngines_single hset, State.cutOne_act]
    rw [hcut]
    refine ⟨fun r hs hr hd => ⟨_, rfl, ?_⟩, fun hs hn => ?_, fun hs hn => ?_⟩
    · rw [s.cutAct_running tag e hs hr, ← LeverRecord.afterCompletion_false]
      exact s.complete_completed e r false hd
    · rw [s.cutAct_idle tag e hs hn]
      refine ⟨_, rfl, ⟨s.latch e .auto, rfl, ?_⟩, fun hr => ?_⟩
      · rw [← LeverRecord.afterCompletion_false]
        exact s.complete_completed e _ false (s.nextElements_nodup e)
      · rw [exec_plain (c := .take set) rfl s hin rfl rfl, State.deliver, State.forEngines_single hset, State.takeOne_act,
          s.takeAct_rate0 tag e hs hn hr]
    · rw [s.cutAct_empty tag e hs hn]; rfl
  · rw [exec_plain (c := .cut set) rfl s (engineSet_inValueSets hset) rfl rfl]
    exact ⟨_, rfl, (s.cut_acted tag set hw).frame, s.cut_effect tag set hw rfl⟩
  · rw [exec_plain (c := .take set) rfl s (engineSet_inValueSets hset) rfl rfl]
    exact ⟨_, rfl, (s.take_acted tag set).frame, s.take_effect tag set hstarts rfl⟩

end Sys2Proof.Machine
end

section
/-!
RESULTS. The lever (R95 to R99): LEVER to an engine in IDLE and to one with a run.
-/

namespace Sys2Proof.Machine

open Sys2Proof

/-- A LEVER within range, taken at once (log 3). -/
theorem exec_lever (tag : Tag) (me : Me) {position : Nat} (h : position ≤ 1024) (s : State) :
    exec (.lever tag me position) s = .next (s.deliverLever tag me position) :=
  exec_plain (c := .lever me position) rfl s trivial rfl (by rw [Command.clamp, Nat.min_eq_left h])

theorem engine_isMe (me : Me) : me.engine.isMe = true := by cases me <;> rfl

/-- The lever record after a completion that the lever made (R97). -/
theorem LeverRecord.afterCompletion_true (r : LeverRecord) :
    r.afterCompletion true =
      { last := r.last, offside := false, sense := match r.sense with | .up => .down | .down => .up } := by
  cases h : r.sense <;> simp [LeverRecord.afterCompletion, h]

/-- A run latched by the lever on an M/E engine (R78, R96). -/
theorem State.latch_lever (s : State) {e : EngineId} (h : e.isMe = true) :
    s.latch e .lever =
      { elements := s.nextElements e, settings := (s.engine e).next
        shape := some (s.shape (s.engine e).next.shape), driver := .lever } := by
  rw [State.latch, if_pos h]

/-- A completion on a state whose engine has been written is one on the state before, where the settings, the
selection and the force were kept (R90). -/
theorem State.completed_of_setEngine {s t : State} {e : EngineId} {x : Engine} {r : RunRecord} {l : LeverRecord}
    (h : (s.setEngine e x).completed t e r l)
    (hx : x.next = (s.engine e).next ∧ x.sel = (s.engine e).sel ∧ x.force = (s.engine e).force) :
    s.completed t e r l := by
  obtain ⟨hframe, hmatrix, hkeys, hftb, hengine, hothers⟩ := h
  obtain ⟨hnext, hsel, hforce⟩ := hx
  refine ⟨hframe, hmatrix, hkeys, hftb, ?_, fun f hf => (hothers f hf).trans (s.engine_setEngine_ne hf.symm x)⟩
  rw [hengine, State.engine_setEngine_same]
  simp only [hnext, hsel, hforce]

/-- A run that the lever brings to effective position 1024 completes with its sense flipped (R97). -/
theorem State.completed_byLever (s : State) (e : EngineId) (x : Engine) (r : RunRecord)
    (hx : x.next = (s.engine e).next ∧ x.sel = (s.engine e).sel ∧ x.force = (s.engine e).force)
    (hd : (r.elements.keys.map Prod.fst).Nodup) :
    s.completed ((s.setEngine e x).complete e r true) e r
      { last := x.lever.last, offside := false, sense := match x.lever.sense with | .up => .down | .down => .up } := by
  have h := (s.setEngine e x).complete_completed e r true hd
  rw [State.engine_setEngine_same, LeverRecord.afterCompletion_true] at h
  exact State.completed_of_setEngine h hx

/-- A write to one engine alone. -/
theorem State.setEngine_alone (s : State) (e : EngineId) (x : Engine) :
    s.setEngine e x = { s with engines := (s.setEngine e x).engines } ∧ (s.setEngine e x).engine e = x ∧
      ∀ f, f ≠ e → (s.setEngine e x).engine f = s.engine f :=
  ⟨rfl, s.engine_setEngine_same e x, fun _ hf => s.engine_setEngine_ne hf.symm x⟩

/-- Settles O39: the rows of R96's table. -/
theorem leverFromIdle : Obligations.LeverFromIdle := by
  intro tag me position p s e x hpos he hx hidle hp
  have hp' : p = ({ x.lever with last := position } : LeverRecord).effective :=
    hp.trans (by cases h : x.lever.sense <;> simp [LeverRecord.effective, h])
  rw [exec_lever tag me hpos, State.deliverLever]
  simp only [← he, ← hx, hidle, State.leverIdle, ← hp', s.latch_lever (he ▸ engine_isMe me)]
  refine ⟨fun h => ?_, fun h0 ho hn => ?_, fun h0 h1 ho hn => ?_, fun h1 ho hn => ?_⟩
  · by_cases h0 : p = 0
    · rw [if_pos h0]
      refine ⟨_, rfl, ?_⟩
      simpa [h0] using s.setEngine_alone e _
    · have ho := h.resolve_left h0
      rw [if_neg h0, if_pos ho]
      refine ⟨_, rfl, ?_⟩
      simpa [h0] using s.setEngine_alone e _
  · rw [if_neg h0, if_neg (by simp [ho]), if_pos hn]; rfl
  · rw [if_neg h0, if_neg (by simp [ho]), if_neg (by simp [hn]), if_neg h1]
    refine ⟨_, rfl, ?_⟩
    simpa [hx] using s.setEngine_alone e _
  · rw [if_neg (by omega), if_neg (by simp [ho]), if_neg (by simp [hn]), if_pos h1]
    exact ⟨_, rfl, _, rfl, s.completed_byLever e _ _ (by rw [hx]; exact ⟨rfl, rfl, rfl⟩) (s.nextElements_nodup e)⟩

/-- Settles O40: an engine in LEVER follows, one in AUTO or PAUSED is picked up at its own position. -/
theorem leverMovesAndPicksUpARun : Obligations.LeverMovesAndPicksUpARun := by
  intro tag me position p s e x r hpos he hx hidle hr hp hd
  have hp' : p = ({ x.lever with last := position } : LeverRecord).effective :=
    hp.trans (by cases h : x.lever.sense <;> simp [LeverRecord.effective, h])
  have hkept : x.next = (s.engine e).next ∧ x.sel = (s.engine e).sel ∧ x.force = (s.engine e).force := by
    rw [hx]; exact ⟨rfl, rfl, rfl⟩
  have hlever : x.state = .lever → s.deliverLever tag me position =
      s.leverRunning e r { x.lever with last := position } := fun h => by
    simp only [State.deliverLever, ← he, ← hx, h, hr]
  have hpickup : x.state ≠ .lever → s.deliverLever tag me position =
      s.leverPickup e r { x.lever with last := position } := fun h => by
    simp only [State.deliverLever, ← he, ← hx, hr]
    cases hs : x.state with
    | idle => exact absurd hs hidle
    | lever => exact absurd hs h
    | _ => rfl
  rw [exec_lever tag me hpos]
  refine ⟨fun hs h0 => ?_, fun hs h0 h1 => ?_, fun hs h => ?_, fun hs hq h0 h1 => ?_, fun h1 h => ?_⟩
  · rw [hlever hs]
    simp only [State.leverRunning, ← hp', ← hx]
    rw [if_pos h0]
    exact ⟨_, rfl, s.setEngine_alone e _⟩
  · rw [hlever hs]
    simp only [State.leverRunning, ← hp', ← hx]
    rw [if_neg h0, if_neg h1]
    exact ⟨_, rfl, s.setEngine_alone e _⟩
  · rw [hpickup hs]
    simp only [State.leverPickup, ← hp', ← hx]
    rw [if_neg (by omega)]
    by_cases h0 : p = 0
    · rw [if_pos h0]
      refine ⟨_, rfl, ?_⟩
      simpa [h0] using s.setEngine_alone e _
    · rw [if_neg h0]
      refine ⟨_, rfl, ?_⟩
      simpa [h0] using s.setEngine_alone e _
  · rw [hpickup hs]
    simp only [State.leverPickup, ← hp', ← hx]
    rw [if_pos ⟨hq, Nat.pos_of_ne_zero h0⟩, if_neg h1]
    exact ⟨_, rfl, s.setEngine_alone e _⟩
  · refine ⟨_, rfl, ?_⟩
    by_cases hs : x.state = .lever
    · rw [hlever hs]
      simp only [State.leverRunning, ← hp', ← hx]
      rw [if_neg (by omega), if_pos h1]
      exact s.completed_byLever e _ r hkept hd
    · rw [hpickup hs]
      simp only [State.leverPickup, ← hp', ← hx]
      rw [if_pos ⟨h.resolve_left hs, by omega⟩, if_pos h1]
      exact s.completed_byLever e _ { r with driver := .lever } hkept hd

end Sys2Proof.Machine
end

section
/-!
RESULTS. The transition engines at a field start: the AUTO steps (R81), and the A/B exchange after every SELECT due
at the field (R62, R67).
-/

namespace Sys2Proof.Machine

open Sys2Proof

/-! ### The AUTO step of one engine (R80, R81) -/

/-- What the AUTO step does to an engine (R81). -/
def Engine.stepAct (x : Engine) : EngineAct :=
  match x.state, x.run with
  | .auto, some r =>
    if x.j + 1 = r.settings.rate then .completes r
    else .becomes { x with j := x.j + 1, q := (x.j + 1) * 1024 / r.settings.rate }
  | _, _ => .rests

/-- The engine after its AUTO step (R81). -/
def Engine.stepped (x : Engine) : Engine :=
  match x.stepAct with
  | .completes _ => { x with state := .idle, j := 0, q := 0, run := none, lever := x.lever.leftBehind }
  | .becomes y => y
  | _ => x

section
variable {x : Engine}

theorem Engine.stepAct_of_not_auto (h : x.state ≠ .auto) : x.stepAct = .rests := by
  unfold Engine.stepAct
  split
  · contradiction
  · rfl

theorem Engine.stepAct_auto (h : x.state = .auto) {r : RunRecord} (hr : x.run = some r) :
    x.stepAct =
      if x.j + 1 = r.settings.rate then .completes r
      else .becomes { x with j := x.j + 1, q := (x.j + 1) * 1024 / r.settings.rate } := by
  rw [Engine.stepAct, h, hr]

end

section
variable (s : State)

/-- An engine completes at its AUTO step where the run takes its last step (R81). -/
theorem State.stepAct_completes (e : EngineId) (r : RunRecord) :
    (s.engine e).stepAct = .completes r ↔ s.lastStep e r := by
  constructor
  · intro h
    unfold Engine.stepAct at h
    split at h
    next hs hr =>
      split at h <;> cases h
      exact ⟨hs, hr, by assumption⟩
    next => cases h
  · rintro ⟨hs, hr, hj⟩
    rw [Engine.stepAct_auto hs hr, if_pos hj]

theorem State.stepEngine_act (e : EngineId) : s.stepEngine e = s.act e (s.engine e).stepAct := by
  unfold State.stepEngine Engine.stepAct
  dsimp only
  cases (s.engine e).state with
  | auto =>
    cases (s.engine e).run with
    | some r => dsimp only; split <;> rfl
    | none => rfl
  | _ => rfl

theorem State.stepEngine_engine (e f : EngineId) :
    (s.stepEngine e).engine f = if e = f then (s.engine f).stepped else s.engine f := by
  rw [s.stepEngine_act, Engine.stepped]
  by_cases h : e = f
  · subst h
    rw [if_pos rfl]
    cases ha : (s.engine e).stepAct with
    | completes r =>
      rw [State.act, s.engine_complete, if_pos rfl, LeverRecord.afterCompletion_false]
      rfl
    | becomes x => exact s.engine_setEngine_same e x
    | posts n => rfl
    | rests => rfl
  · rw [if_neg h]
    cases ha : (s.engine e).stepAct with
    | completes r => rw [State.act, s.engine_complete, if_neg h]
    | becomes x => exact s.engine_setEngine_ne h x
    | posts n => rfl
    | rests => rfl

/-- A completion of the background counts for the bank of its engine alone (R67, R91). -/
theorem State.complete_exchanges (e : EngineId) (r : RunRecord) (b : Bool) (m : Me) :
    (s.complete e r b).matrix.exchanges m =
      s.matrix.exchanges m + if m.engine = e ∧ r.elements.bkgd = true then 1 else 0 := by
  rw [State.complete_matrix]
  cases r.elements.bkgd
  · simp
  · cases m <;> cases e <;> simp [Matrix.exchanges, Matrix.recordCompletion, Me.engine]

theorem State.stepEngine_exchanges (e : EngineId) (m : Me) :
    (s.stepEngine e).matrix.exchanges m =
      s.matrix.exchanges m + if m.engine = e ∧ (s.engine e).stepAct.exchanges = true then 1 else 0 := by
  rw [s.stepEngine_act]
  cases ha : (s.engine e).stepAct with
  | completes r => exact s.complete_exchanges e r false m
  | _ => simp [State.act, EngineAct.exchanges]

end

/-! ### The AUTO steps of a field, and the exchange -/

/-- The AUTO steps taken engine by engine, each engine once (R81). -/
theorem State.foldl_stepEngine (l : List EngineId) (hl : l.Nodup) (s : State) :
    (∀ f, (l.foldl State.stepEngine s).engine f = if f ∈ l then (s.engine f).stepped else s.engine f) ∧
      ∀ m, (l.foldl State.stepEngine s).matrix.exchanges m =
        s.matrix.exchanges m +
          if m.engine ∈ l ∧ (s.engine m.engine).stepAct.exchanges = true then 1 else 0 := by
  induction l generalizing s with
  | nil => simp
  | cons e l ih =>
    obtain ⟨he, hl⟩ := List.nodup_cons.1 hl
    obtain ⟨hengine, hexchanges⟩ := ih hl (s.stepEngine e)
    refine ⟨fun f => ?_, fun m => ?_⟩
    · rw [List.foldl_cons, hengine, s.stepEngine_engine]
      by_cases hf : e = f
      · subst hf; simp [he]
      · simp [hf, Ne.symm hf]
    · rw [List.foldl_cons, hexchanges, s.stepEngine_exchanges, s.stepEngine_engine]
      by_cases hm : m.engine = e
      · simp [hm, he]
      · simp [hm, Ne.symm hm]

/-- The exchanges called for at the end of a field start: those recorded at the deliveries, and that of a run of
the bank that takes its last step (R67). -/
def State.exchangesDue (s : State) (m : Me) : Nat :=
  s.matrix.exchanges m + if (s.engine m.engine).stepAct.exchanges then 1 else 0

/-- A pair of buses after the exchanges that a count calls for (R67). -/
theorem exchangeTimes_look (v : Vector Nat 20) {a b : Nat} (ha : a < 20) (hb : b < 20) (hab : a ≠ b) (k i : Nat) :
    look (exchangeTimes v a b k) i 0 =
      if k % 2 = 1 then if i = a then look v b 0 else if i = b then look v a 0 else look v i 0
      else look v i 0 := by
  unfold exchangeTimes
  split
  · rw [exchangeBuses, look_put, look_put]
    by_cases hi : i = a
    · subst hi; simp [hab.symm, ha]
    · by_cases hi' : i = b
      · subst hi'; simp [hab.symm, hb]
      · simp [Ne.symm hi, Ne.symm hi', hi, hi']
  · rfl

/-- The A and B buses of a bank after the exchange, and the buses of no bank's pair (R59, R67). -/
theorem Matrix.exchange_look (x : Matrix) :
    (∀ m, look x.exchange.buses (bankA m) 0 =
        look x.buses (if x.exchanges m % 2 = 1 then bankA m + 1 else bankA m) 0 ∧
      look x.exchange.buses (bankA m + 1) 0 =
        look x.buses (if x.exchanges m % 2 = 1 then bankA m else bankA m + 1) 0) ∧
    ∀ b, b ≠ 0 → b ≠ 1 → b ≠ 8 → b ≠ 9 → look x.exchange.buses b 0 = look x.buses b 0 := by
  have hlook : ∀ i, look x.exchange.buses i 0 = _ := fun i =>
    exchangeTimes_look (exchangeTimes x.buses 0 1 x.exchange1) (a := 8) (b := 9) (by decide) (by decide) (by decide)
      x.exchange2 i
  simp only [exchangeTimes_look x.buses (a := 0) (b := 1) (by decide) (by decide) (by decide)] at hlook
  refine ⟨fun m => ?_, fun b h0 h1 h8 h9 => ?_⟩
  · rw [hlook, hlook]
    cases m with
    | me1 => by_cases h : x.exchange1 % 2 = 1 <;> simp [bankA, Matrix.exchanges, h]
    | me2 => by_cases h : x.exchange2 % 2 = 1 <;> simp [bankA, Matrix.exchanges, h]
  · rw [hlook]
    simp [h0, h1, h8, h9]

/-- What the end of a field start makes of engines, keyers, fade and buses. -/
theorem State.finishField_effect (s : State) :
    (∀ e, s.finishField.engine e = (s.engine e).stepped) ∧
    (∀ n, s.finishField.keyer n = s.stepEngines.keyer n) ∧ s.finishField.ftb = s.stepEngines.ftb ∧
    (∀ m, s.finishField.bus (bankA m) = s.bus (if s.exchangesDue m % 2 = 1 then bankA m + 1 else bankA m) ∧
      s.finishField.bus (bankA m + 1) = s.bus (if s.exchangesDue m % 2 = 1 then bankA m else bankA m + 1)) ∧
    ∀ b, b ≠ 0 → b ≠ 1 → b ≠ 8 → b ≠ 9 → s.finishField.bus b = s.bus b := by
  obtain ⟨hengine, hexchanges⟩ := State.foldl_stepEngine EngineId.all EngineId.all_nodup s
  simp only [EngineId.mem_all, if_true, true_and] at hengine hexchanges
  have hbuses := (State.stepEngines_only s).buses
  obtain ⟨hpair, hothers⟩ := s.stepEngines.matrix.exchange_look
  have hdue : ∀ m, s.stepEngines.matrix.exchanges m = s.exchangesDue m := hexchanges
  simp only [hdue, hbuses] at hpair hothers
  exact ⟨hengine, fun _ => rfl, rfl, hpair, hothers⟩

/-- With the engines well formed, the AUTO steps of a field act on each engine alone (R81, R89). -/
theorem State.stepEngines_acted (s : State) (h : s.engines.wf) :
    s.Acted s.stepEngines EngineId.all fun e => (s.engine e).stepAct := by
  have hall : ∀ e : EngineId, e.isIn 31#5 = true := by intro e; cases e <;> rfl
  have hstep : s.stepEngines = s.forEngines 31#5 State.stepEngine := by
    simp only [State.stepEngines, State.forEngines, hall, if_true]
  have hacted := s.forEngines_acted 31#5 State.stepEngine (fun u e => (u.engine e).stepAct)
    (fun u e => u.stepEngine_act e) (fun _ _ hu => by rw [hu.engine]) fun e r ha =>
      (h.1 e).belongs ((s.stepAct_completes e r).1 ha).2.1
  simp only [hall, if_true] at hacted
  exact hstep ▸ hacted

/-- Settles O14: the field start takes one AUTO step of every engine, and the exchange follows. -/
theorem fieldStartStepsTheEngines : Obligations.FieldStartStepsTheEngines := by
  intro i s hi hd
  obtain ⟨u, hexec, hu, hcounter, -, -⟩ := State.startsField_exec i s hi
  obtain ⟨-, -, -, hengines, hkeyers, hftb, -, -, hbuses, -, hx1, hx2⟩ := u.begun_keeps
  have hstart : u.startField = u.begun.finishField := by
    rw [State.startField_of_none_due u (by rw [hu, hcounter]; exact hd)]; rfl
  refine ⟨_, hexec, ?_⟩
  rw [hstart]
  have hengine : ∀ e, u.begun.engine e = s.engine e := fun e => by
    rw [State.engine, hengines, hu]; rfl
  have hkeyer : ∀ n, u.begun.keyer n = s.keyer n := fun n => by
    rw [State.keyer, hkeyers, hu]; rfl
  have hbus : ∀ b, u.begun.bus b = s.bus b := fun b => by
    rw [State.bus, hbuses, hu]; rfl
  have hlast : ∀ e r, u.begun.lastStep e r ↔ s.lastStep e r := fun e r => by simp only [State.lastStep, hengine]
  obtain ⟨hstepped, hk, hf, hpair, hothers⟩ := u.begun.finishField_effect
  have hwf : u.begun.engines = s.engines := by rw [hengines, hu]
  have hfade : u.begun.ftb = s.ftb := by rw [hftb, hu]
  have hex1 : u.begun.matrix.exchange1 = s.matrix.exchange1 := by rw [hx1, hu]
  have hex2 : u.begun.matrix.exchange2 = s.matrix.exchange2 := by rw [hx2, hu]
  generalize u.begun = b at *
  refine ⟨fun e => ⟨fun hs => ?_, fun r hs hr => ⟨fun hj => ?_, fun hj => ?_⟩⟩, fun hw => ?_⟩
  · rw [hstepped, hengine, Engine.stepped, Engine.stepAct_of_not_auto hs]
  · rw [hstepped, hengine, Engine.stepped, Engine.stepAct_auto hs hr, if_neg hj]
  · rw [hstepped, hengine, Engine.stepped, Engine.stepAct_auto hs hr, if_pos hj]
  have hacted := b.stepEngines_acted (hwf ▸ hw)
  refine ⟨fun n e r hn hl hm => ?_, fun n hn hl => ?_, fun r hl => ?_, fun hl => ?_, fun h1 h2 => ⟨?_, ?_⟩⟩
  · rw [hk, hacted.toggled n e r hn (EngineId.mem_all e) ((b.stepAct_completes e r).2 ((hlast e r).2 hl)) hm, hkeyer]
  · rw [hk, ← hkeyer]
    exact hacted.kept n hn fun e r _ ha => hl e r ((hlast e r).1 ((b.stepAct_completes e r).1 ha))
  · rw [hf, hacted.ftb, (b.stepAct_completes .ftb r).2 ((hlast _ r).2 hl)]
    simp only [EngineId.mem_all, if_true]
    exact ⟨fun h => by rw [h]; rfl, fun h => by rw [h]; rfl⟩
  · rw [hf, hacted.ftb, hfade]
    cases ha : (b.engine .ftb).stepAct with
    | completes r => exact absurd ((hlast _ r).1 ((b.stepAct_completes .ftb r).1 ha)) (hl r)
    | _ => rfl
  · rintro m a rfl
    have hzero : b.matrix.exchanges m = 0 := by cases m <;> [exact hex1.trans h1; exact hex2.trans h2]
    obtain ⟨hA, hB⟩ := hpair m
    simp only [hbus, State.exchangesDue, hzero, Nat.zero_add] at hA hB
    rw [hA, hB]
    refine ⟨fun ⟨r, hl, hbk⟩ => ?_, fun hl => ?_⟩
    · have hx : (b.engine m.engine).stepAct.exchanges = true := by
        rw [(b.stepAct_completes m.engine r).2 ((hlast _ r).2 hl)]; exact hbk
      simp [hx]
    · have hx : (b.engine m.engine).stepAct.exchanges = false := by
        cases ha : (b.engine m.engine).stepAct with
        | completes r => exact hl r ((hlast _ r).1 ((b.stepAct_completes _ r).1 ha))
        | _ => rfl
      simp [hx]
  · intro n h0 h1 h8 h9
    rw [hothers n h0 h1 h8 h9, hbus]

/-! ### SELECTs before the exchange (R62, R67, R68) -/

/-- State `t` is `s` after deliveries of the entries `es`, as far as the buses and the tables show it (R62). -/
structure State.Selected (s t : State) (es : List Entry) : Prop where
  tables : t.tables = s.tables
  bus : ∀ b, b ≤ 19 → t.bus b = lastSelected es b (s.bus b)

theorem State.Selected.nil (s : State) : s.Selected s [] := ⟨rfl, fun _ _ => rfl⟩

theorem State.Selected.trans {s t u : State} {es es' : List Entry} (h : s.Selected t es) (h' : t.Selected u es') :
    s.Selected u (es ++ es') :=
  ⟨h'.tables.trans h.tables, fun b hb => by
    rw [h'.bus b hb, h.bus b hb, lastSelected, lastSelected, lastSelected, List.foldl_append]⟩

theorem State.Selected.selectsEnabled {s t : State} {es : List Entry} (h : s.Selected t es) {e : Entry}
    (he : s.selectsEnabled e) : t.selectsEnabled e := by
  obtain ⟨b, n, hc, hn⟩ := he
  exact ⟨b, n, hc, by rw [State.source, h.tables]; exact hn⟩

/-- A delivery that changes the engines' part alone selects nothing. -/
theorem State.EnginesOnly.selected {s t : State} (h : s.EnginesOnly t) {e : Entry}
    (he : ∀ b n, e.command ≠ .select b n) : s.Selected t [e] := by
  refine ⟨h.tables, fun b _ => ?_⟩
  rw [State.bus, h.buses, lastSelected, List.foldl_cons, List.foldl_nil]
  split
  next c n hc => exact absurd hc (he c n)
  next => rfl

/-- The delivery of a SELECT of an enabled source (R49, R62). -/
theorem State.deliverEntry_selects (s : State) {e : Entry} (he : s.selectsEnabled e) :
    s.Selected (s.deliverEntry e) [e] ∧ (s.deliverEntry e).engines = s.engines ∧
      ∀ m, (s.deliverEntry e).matrix.exchanges m = s.matrix.exchanges m := by
  obtain ⟨b, n, hc, hn⟩ := he
  have hd : s.deliverEntry e = { s with waiting := s.waiting.removeHead }.setBus b n := by
    rw [s.deliverEntry_eq, hc]
    exact if_pos hn
  rw [hd]
  refine ⟨⟨rfl, fun c hcb => ?_⟩, rfl, fun m => by cases m <;> rfl⟩
  rw [State.bus_setBus, lastSelected, List.foldl_cons, List.foldl_nil, hc]
  have : c < 20 := by omega
  simp only [this, and_true]
  rfl

/-- The deliveries of SELECTs of enabled sources (R62). -/
theorem State.foldl_selects (l : List Entry) (s : State) (h : ∀ e ∈ l, s.selectsEnabled e) :
    s.Selected (l.foldl State.deliverEntry s) l ∧ (l.foldl State.deliverEntry s).engines = s.engines ∧
      ∀ m, (l.foldl State.deliverEntry s).matrix.exchanges m = s.matrix.exchanges m := by
  induction l generalizing s with
  | nil => exact ⟨.nil s, rfl, fun _ => rfl⟩
  | cons e l ih =>
    obtain ⟨hsel, hengines, hexchanges⟩ := s.deliverEntry_selects (h e List.mem_cons_self)
    obtain ⟨hsel', hengines', hexchanges'⟩ := ih (s.deliverEntry e) fun x hx =>
      hsel.selectsEnabled (h x (List.mem_cons_of_mem _ hx))
    exact ⟨hsel.trans hsel', hengines'.trans hengines, fun m => (hexchanges' m).trans (hexchanges m)⟩

/-- A LEVER that brings a run to effective position 1024 completes it at its delivery (R97). -/
theorem State.lever_completes (s : State) (tag : Tag) {m : Me} {p : Nat} {r : RunRecord}
    (hs : (s.engine m.engine).state = .lever) (hr : (s.engine m.engine).run = some r)
    (hp : ({ (s.engine m.engine).lever with last := p } : LeverRecord).effective = 1024) :
    ((s.deliverLever tag m p).engine m.engine).state = .idle ∧
      (s.deliverLever tag m p).matrix.exchanges m =
        s.matrix.exchanges m + if r.elements.bkgd then 1 else 0 := by
  have hrun : s.deliverLever tag m p =
      (s.setEngine m.engine
        { s.engine m.engine with q := 1024, lever := { (s.engine m.engine).lever with last := p } }).complete
        m.engine r true := by
    simp only [State.deliverLever, hs, hr, State.leverRunning, hp]
    rfl
  rw [hrun, State.engine_complete, State.complete_exchanges]
  simp only [if_true, true_and]
  exact ⟨rfl, rfl⟩

/-- A CUT to one idle bank whose next selection has BKGD completes a run of the background (R85, R91). -/
theorem State.cut_completes (s : State) (tag : Tag) {m : Me} {set : EngineSet}
    (hset : ∀ f : EngineId, f.isIn set = decide (f = m.engine)) (hs : (s.engine m.engine).state = .idle)
    (hb : (s.engine m.engine).sel.bkgd = true) :
    ((s.forEngines set (State.cutOne tag)).engine m.engine).state = .idle ∧
      ((s.forEngines set (State.cutOne tag)).engine m.engine).sel.bkgd = true ∧
      (s.forEngines set (State.cutOne tag)).matrix.exchanges m = s.matrix.exchanges m + 1 := by
  have hnext : s.nothingNext m.engine = false := by
    rw [State.nothingNext, Bool.and_eq_false_iff]
    refine .inr (beq_eq_false_iff_ne.2 fun h => ?_)
    rw [h] at hb
    cases hb
  have hbkgd : (s.latch m.engine .auto).elements.bkgd = true := by cases m <;> exact hb
  rw [State.forEngines_single hset, State.cutOne_act, State.cutAct_idle _ _ _ hs hnext, State.act,
    State.engine_complete, State.complete_exchanges, if_pos rfl, hbkgd]
  exact ⟨rfl, hb, by simp⟩

/-- The delivery of such a LEVER (R35, R97). -/
theorem State.deliverEntry_lever (s : State) {e : Entry} {m : Me} {p : Nat} (hc : e.command = .lever m p)
    {r : RunRecord} (hs : (s.engine m.engine).state = .lever) (hr : (s.engine m.engine).run = some r)
    (hp : ({ (s.engine m.engine).lever with last := p } : LeverRecord).effective = 1024) :
    s.Selected (s.deliverEntry e) [e] ∧ ((s.deliverEntry e).engine m.engine).state = .idle ∧
      (s.deliverEntry e).matrix.exchanges m = s.matrix.exchanges m + if r.elements.bkgd then 1 else 0 := by
  have hd : s.deliverEntry e = { s with waiting := s.waiting.removeHead }.deliverLever e.tag m p := by
    rw [s.deliverEntry_eq, hc]; rfl
  have honly := State.deliverLever_only (s := { s with waiting := s.waiting.removeHead }) e.tag m p
  have hhead : s.Selected { s with waiting := s.waiting.removeHead } [] := ⟨rfl, fun _ _ => rfl⟩
  rw [hd]
  exact ⟨hhead.trans (honly.selected (by rw [hc]; nofun)), State.lever_completes _ e.tag hs hr hp⟩

/-- The delivery of such a CUT (R35, R85). -/
theorem State.deliverEntry_cut (s : State) {e : Entry} {m : Me} {set : EngineSet} (hc : e.command = .cut set)
    (hset : ∀ f : EngineId, f.isIn set = decide (f = m.engine)) (hs : (s.engine m.engine).state = .idle)
    (hb : (s.engine m.engine).sel.bkgd = true) :
    s.Selected (s.deliverEntry e) [e] ∧ ((s.deliverEntry e).engine m.engine).state = .idle ∧
      ((s.deliverEntry e).engine m.engine).sel.bkgd = true ∧
      (s.deliverEntry e).matrix.exchanges m = s.matrix.exchanges m + 1 := by
  have hd : s.deliverEntry e = { s with waiting := s.waiting.removeHead }.forEngines set (State.cutOne e.tag) := by
    rw [s.deliverEntry_eq, hc]; rfl
  have honly := State.forEngines_only (fun u f => u.cutOne_only e.tag f)
    { s with waiting := s.waiting.removeHead } set
  have hhead : s.Selected { s with waiting := s.waiting.removeHead } [] := ⟨rfl, fun _ _ => rfl⟩
  rw [hd]
  exact ⟨hhead.trans (honly.selected (by rw [hc]; nofun)), State.cut_completes _ e.tag hset hs hb⟩

/-- The deliveries of SELECTs and of CUTs to one idle bank (R62, R68). -/
theorem State.foldl_cuts (l : List Entry) (s : State) {m : Me} {set : EngineSet}
    (hset : ∀ f : EngineId, f.isIn set = decide (f = m.engine))
    (hl : ∀ e ∈ l, s.selectsEnabled e ∨ e.command = .cut set) (hs : (s.engine m.engine).state = .idle)
    (hb : (s.engine m.engine).sel.bkgd = true) :
    s.Selected (l.foldl State.deliverEntry s) l ∧
      ((l.foldl State.deliverEntry s).engine m.engine).state = .idle ∧
      (l.foldl State.deliverEntry s).matrix.exchanges m =
        s.matrix.exchanges m + l.countP (fun e => e.command == .cut set) := by
  induction l generalizing s with
  | nil => exact ⟨.nil s, hs, rfl⟩
  | cons e l ih =>
    rw [List.foldl_cons, List.countP_cons]
    rcases hl e List.mem_cons_self with he | he
    · obtain ⟨hsel, hengines, hexchanges⟩ := s.deliverEntry_selects he
      have hne : e.command ≠ .cut set := by
        obtain ⟨b, n, hc, -⟩ := he
        rw [hc]; nofun
      have hengine : (s.deliverEntry e).engine m.engine = s.engine m.engine := by rw [State.engine, hengines]; rfl
      obtain ⟨hsel', hidle', hexchanges'⟩ := ih (s.deliverEntry e)
        (fun x hx => (hl x (List.mem_cons_of_mem _ hx)).imp_left hsel.selectsEnabled) (by rw [hengine]; exact hs)
        (by rw [hengine]; exact hb)
      exact ⟨hsel.trans hsel', hidle', by rw [hexchanges', hexchanges]; simp [hne]⟩
    · obtain ⟨hsel, hidle, hbk, hexchanges⟩ := s.deliverEntry_cut he hset hs hb
      obtain ⟨hsel', hidle', hexchanges'⟩ := ih (s.deliverEntry e)
        (fun x hx => (hl x (List.mem_cons_of_mem _ hx)).imp_left hsel.selectsEnabled) hidle hbk
      exact ⟨hsel.trans hsel', hidle', by rw [hexchanges', hexchanges]; simp [he]; omega⟩

/-- A field start with every waiting entry due: the deliveries, then the end of the field start (R35). -/
theorem State.startField_of_all_due (u : State) (hd : ∀ e ∈ u.waiting.entries, e.due = u.timing.counter)
    (hl : ∀ e ∈ u.waiting.entries, e.command.leavesList) :
    u.startField = (u.waiting.entries.foldl State.deliverEntry u.begun).finishField := by
  obtain ⟨hfield, hwaiting, -⟩ := u.begun_keeps
  have h := State.release_prefix u.waiting.entries [] 0 u.begun (by rw [hwaiting, List.append_nil])
    (by rw [hfield]; exact hd) hl
  rw [u.startField_eq, State.releaseDue, ← State.begun, hwaiting]
  exact congrArg State.finishField h.1

/-- The buses of a bank, its engine idle after the deliveries or stepped to its end (R67). -/
theorem State.Selected.finishField {s t : State} {es : List Entry} (h : s.Selected t es) (m : Me) {held : Nat → Nat}
    (hheld : ∀ b, held b = lastSelected es b (s.bus b)) :
    (t.exchangesDue m % 2 = 1 →
      t.finishField.bus (bankA m) = held (bankA m + 1) ∧ t.finishField.bus (bankA m + 1) = held (bankA m)) ∧
    (t.exchangesDue m % 2 = 0 →
      t.finishField.bus (bankA m) = held (bankA m) ∧ t.finishField.bus (bankA m + 1) = held (bankA m + 1)) ∧
    ∀ b, b ≤ 19 → b ≠ 0 → b ≠ 1 → b ≠ 8 → b ≠ 9 → t.finishField.bus b = held b := by
  obtain ⟨-, -, -, hpair, hothers⟩ := t.finishField_effect
  obtain ⟨hA, hB⟩ := hpair m
  have hbus : ∀ b, b ≤ 19 → t.bus b = held b := fun b hb => (h.bus b hb).trans (hheld b).symm
  have ha : bankA m + 1 ≤ 19 := by cases m <;> decide
  refine ⟨fun hx => ?_, fun hx => ?_, fun b hb h0 h1 h8 h9 => (hothers b h0 h1 h8 h9).trans (hbus b hb)⟩
  · rw [hA, hB, if_pos hx, if_pos hx]
    exact ⟨hbus _ ha, hbus _ (by omega)⟩
  · rw [hA, hB, if_neg (by omega), if_neg (by omega)]
    exact ⟨hbus _ (by omega), hbus _ ha⟩

/-- An idle engine adds no exchange at the end of a field start (R81). -/
theorem State.exchangesDue_of_idle (s : State) (m : Me) (h : (s.engine m.engine).state = .idle) :
    s.exchangesDue m = s.matrix.exchanges m ∧ (s.finishField.engine m.engine).state = .idle := by
  have hrests : (s.engine m.engine).stepAct = .rests := Engine.stepAct_of_not_auto (by rw [h]; decide)
  refine ⟨by rw [State.exchangesDue, hrests]; rfl, ?_⟩
  rw [s.finishField_effect.1, Engine.stepped, hrests]
  exact h

/-- Settles O13: the deliveries leave what the last SELECTs name, and count the completions for the exchange. -/
theorem selectPrecedesTheExchange : Obligations.SelectPrecedesTheExchange := by
  rintro i s m _ held hi rfl hheld hdue hzero
  obtain ⟨u, hexec, hu, hcounter, -, -⟩ := State.startsField_exec i s hi
  obtain ⟨-, -, htables, hengines, -, -, -, -, hbuses, -, hx1, hx2⟩ := u.begun_keeps
  have hengine : ∀ e, u.begun.engine e = s.engine e := fun e => by
    rw [State.engine, hengines, hu]; rfl
  have hbegun : s.Selected u.begun [] :=
    ⟨by rw [htables, hu], fun b _ => by rw [State.bus, hbuses, hu]; rfl⟩
  have hnone : u.begun.matrix.exchanges m = 0 := by
    rw [← hzero]
    cases m <;> [exact hx1.trans (by rw [hu]; rfl); exact hx2.trans (by rw [hu]; rfl)]
  have hstart : (∀ e ∈ s.waiting.entries, e.command.leavesList) →
      exec i s = .next (s.waiting.entries.foldl State.deliverEntry u.begun).finishField := fun hl => by
    have hw : u.waiting = s.waiting := by rw [hu]
    rw [hexec, u.startField_of_all_due (by rw [hcounter, hw]; exact hdue) (by rw [hw]; exact hl), hw]
  have hselects : ∀ {e : Entry}, s.selectsEnabled e → e.command.leavesList := by
    rintro e ⟨b, n, hc, -⟩
    rw [hc]; exact ⟨nofun, rfl⟩
  generalize u.begun = b at *
  refine ⟨fun r hl hlast hbk => ?_, fun r before after lever p hsplit hlever hl hs hr hbk hp => ?_,
    fun set cuts hset hl hcuts hs hbk => ?_⟩
  · obtain ⟨hsel, hkept, hexchanges⟩ := State.foldl_selects s.waiting.entries b fun e he =>
      hbegun.selectsEnabled (hl e he)
    have hstep := (b.stepAct_completes m.engine r).2 (by simpa only [State.lastStep, hengine] using hlast)
    have hsame : ∀ e, (s.waiting.entries.foldl State.deliverEntry b).engine e = b.engine e := fun e => by
      rw [State.engine, hkept]; rfl
    obtain ⟨hodd, -, hothers⟩ := (hbegun.trans hsel).finishField m hheld
    obtain ⟨hA, hB⟩ := hodd (by
      rw [State.exchangesDue, hexchanges, hnone, hsame, hstep, EngineAct.exchanges, hbk]; rfl)
    refine ⟨_, hstart fun e he => hselects (hl e he), hA, hB, hothers, ?_⟩
    rw [(State.finishField_effect _).1, Engine.stepped, hsame, hstep]
  · have hleaves : ∀ e ∈ s.waiting.entries, e.command.leavesList := fun e he => by
      rw [hsplit, List.mem_append, List.mem_cons] at he
      rcases he with he | rfl | he
      · exact hselects (hl e (List.mem_append_left _ he))
      · rw [hlever]; exact ⟨nofun, rfl⟩
      · exact hselects (hl e (List.mem_append_right _ he))
    have hfull : ({ (s.engine m.engine).lever with last := p } : LeverRecord).effective = 1024 := by
      rw [← hp]; cases h : (s.engine m.engine).lever.sense <;> simp [LeverRecord.effective, h]
    obtain ⟨hsel1, hkept1, hexchanges1⟩ := State.foldl_selects before b fun e he =>
      hbegun.selectsEnabled (hl e (List.mem_append_left _ he))
    have hsame : (before.foldl State.deliverEntry b).engine m.engine = s.engine m.engine := by
      rw [← hengine, State.engine, hkept1]; rfl
    obtain ⟨hsel2, hidle2, hexchanges2⟩ := State.deliverEntry_lever _ hlever (hsame ▸ hs) (hsame ▸ hr) (hsame ▸ hfull)
    obtain ⟨hsel3, hkept3, hexchanges3⟩ := State.foldl_selects after _ fun e he =>
      ((hbegun.trans hsel1).trans hsel2).selectsEnabled (hl e (List.mem_append_right _ he))
    rw [hsplit] at hstart hleaves hheld
    rw [List.foldl_append, List.foldl_cons] at hstart
    obtain ⟨hx, hafter⟩ := State.exchangesDue_of_idle _ m (by rw [State.engine, hkept3]; exact hidle2)
    rw [hexchanges3, hexchanges2, hexchanges1, hnone, hbk] at hx
    have hall := ((hbegun.trans hsel1).trans hsel2).trans hsel3
    obtain ⟨hodd, -, -⟩ := hall.finishField m (held := held) (by simpa using hheld)
    obtain ⟨hA, hB⟩ := hodd (by rw [hx]; rfl)
    exact ⟨_, hstart hleaves, hA, hB, hafter⟩
  · obtain ⟨hsel, hidle, hexchanges⟩ := State.foldl_cuts s.waiting.entries b hset
      (fun e he => (hl e he).imp_left hbegun.selectsEnabled) (by rw [hengine]; exact hs) (by rw [hengine]; exact hbk)
    obtain ⟨hx, hafter⟩ := State.exchangesDue_of_idle _ m hidle
    rw [hexchanges, hnone, Nat.zero_add, ← hcuts] at hx
    obtain ⟨hodd, heven, -⟩ := (hbegun.trans hsel).finishField m hheld
    rw [hx] at hodd heven
    refine ⟨_, hstart fun e he => ?_, hafter, hodd, heven⟩
    exact (hl e he).elim hselects fun hc => by rw [hc]; exact ⟨nofun, rfl⟩

end Sys2Proof.Machine
end

section
/-!
RESULTS. The path checker (R165 to R168): the samples at its point, and the judgment of a field.
-/

namespace Sys2Proof.Machine

open Sys2Proof

/-! ### What a lane delivers (R11, R165) -/

/-- The picture of a lane in the field in progress is what the lane delivers (R11, R16, log 15, log 18). -/
theorem State.lanePicture_delivers (s : State) {n : Nat} (hn : isLane n = true) (line place : Nat) :
    s.delivers n line place (s.asShown.lanePicture n line place) := by
  obtain ⟨hdecision, hpicture⟩ := s.lane_asShown n
  have hsub : s.asShown.substituteSample (s.asShown.lane n).settings.substitute place =
      Colour.at (s.substituteColour n) place := by
    rw [s.substitute_asShown hn]
    unfold State.substituteColour
    cases look s.picture.substitutes (n - 1) Substitute.black <;> rfl
  simp only [State.lanePicture, State.laneSample?, hdecision, hpicture, hsub]
  refine ⟨fun hown samples hs => ?_, fun h => ?_⟩
  · simp only [if_pos hown, hs]
    refine ⟨fun w hw => by rw [hw]; rfl, fun hp => ?_⟩
    rw [List.getElem?_eq_none hp]; rfl
  · rcases h with hown | hline
    · rw [hown]; rfl
    · simp only [List.getElem?_eq_none hline, ite_self]

/-! ### The comparison with TEST (R163 to R165) -/

/-- A sample that is not the one the sequence has at its place, or stands at a place not filled (R165). -/
theorem Sample.eq_of_iff (x : Sample) (v : Nat) : x = .of v ↔ ¬(x.filled == false || x.value != v) = true := by
  obtain ⟨value, filled⟩ := x
  cases filled <;> simp [Sample.of]

theorem mismatchesFrom_eq_countP (sample : Nat → Sample) (count k : Nat) :
    mismatchesFrom sample count k (testRegister k) =
      (List.range' k count).countP fun i =>
        (sample i).filled == false || (sample i).value != 64 + testRegister (i + 1) % 512 := by
  induction count generalizing k with
  | zero => rfl
  | succ count ih =>
    rw [mismatchesFrom, List.range'_succ, List.countP_cons, ← ih (k + 1), Nat.add_comm]
    refine congrArg _ ?_
    have hvalue : testValue (testStep (testRegister k)) = 64 + testRegister (k + 1) % 512 := rfl
    rw [hvalue]
    simp only [Sample.eq_of_iff]
    split <;> simp_all

/-- M by the samples of the field, each with its own step of the sequence (R165, R167). -/
theorem State.mismatches_eq (s : State) :
    s.mismatches =
      (List.range (fieldSamples s.timing.format)).countP fun k =>
        (s.checkedSample (k / lineLength s.timing.format) (k % lineLength s.timing.format)).filled == false ||
          (s.checkedSample (k / lineLength s.timing.format) (k % lineLength s.timing.format)).value !=
            64 + testRegister (k + 1) % 512 := by
  rw [List.range_eq_range']
  exact mismatchesFrom_eq_countP _ _ 0

/-! ### The judgment (R166 to R168) -/

/-- The counters and the overflow flag after a field is counted (R168). -/
theorem Checker.count_eq (c : Checker) (samples m fields : Nat)
    (hf : fields = c.erroredFields + if m = 0 then 0 else 1) (hc : c.countersInRange) :
    (c.mode = .saturate →
      (c.count samples m).checked = min (c.checked + 1) 65535 ∧ (c.count samples m).errored = min (c.errored + m) 65535 ∧
        (c.count samples m).erroredFields = min fields 65535) ∧
    (c.mode = .wrap →
      (c.count samples m).checked = (c.checked + 1) % 65536 ∧ (c.count samples m).errored = (c.errored + m) % 65536 ∧
        (c.count samples m).erroredFields = fields % 65536) ∧
    ((c.count samples m).overflow = true ↔
      c.overflow = true ∨ 65535 < c.checked + 1 ∨ 65535 < c.errored + m ∨ 65535 < fields) := by
  obtain ⟨hchecked, herrored, hfields⟩ := hc
  by_cases hm : m = 0
  · subst hm hf
    cases hmode : c.mode <;> simp [Checker.count, addCounter, hmode, Nat.not_lt.2 herrored, Nat.not_lt.2 hfields] <;> omega
  · have hpos : 0 < m := Nat.pos_of_ne_zero hm
    rw [if_neg hm] at hf
    subst hf
    cases hmode : c.mode <;> simp [Checker.count, addCounter, hmode, hpos, or_assoc]

/-- Settles O43: M as a count over the field, and the judgment by the checker's state. -/
theorem judgmentLocksAndCounts : Obligations.JudgmentLocksAndCounts := by
  refine ⟨?_, ?_⟩
  · rintro s length rfl
    refine ⟨s.mismatches_eq, fun o ho => ?_, fun n hn h1 h24 line place => ?_⟩
    · cases o <;> simp only [State.checkedSample, ho]
    · have h := s.lanePicture_delivers (n := n) (by simp [isLane]; omega) line place
      simpa only [State.checkedSample, hn] using h
  · rintro s samples hsamples
    have hs : fieldSamples s.timing.format = samples := by rw [hsamples]; rfl
    refine ⟨s.judgeField, rfl, fun h => ?_, fun ht hc => ⟨fun hm => ?_, fun hm => ?_⟩, fun ht hc => ?_⟩
    · rw [State.judgeField]
      rcases h with h | h
      · rw [if_neg (by simp [h])]
      · simp [h]
    · simp [State.judgeField, ht, hc, hm]
    · simp [State.judgeField, ht, hc, hm]
    · have hcount : s.judgeField = s.countField s.mismatches := by simp [State.judgeField, ht, hc]
      rw [hcount]
      generalize s.mismatches = m
      have hchecker : (s.countField m).checker = s.checker.count samples m := by
        unfold State.countField
        dsimp only
        rw [hs]
        split <;> rfl
      have hreports : (s.countField m).reports =
          if m = 0 then s.reports else s.reports.post .checkerError 0 (min m 32767 : Nat) s.timing.field := by
        unfold State.countField
        by_cases hm : m = 0
        · rw [if_pos hm, if_neg (by omega)]
        · rw [if_neg hm, if_pos (by omega), Nat.cast_min]; rfl
      have hframe : s.countField m =
          { s with checker := (s.countField m).checker, reports := (s.countField m).reports } := by
        unfold State.countField
        dsimp only
        split <;> rfl
      rw [hchecker]
      refine ⟨by rw [← hchecker]; exact hframe, rfl, rfl, rfl, ?_, ?_, fun fields hf => ?_, hreports⟩
      · by_cases h : samples < 2 * m <;> simp [Checker.count, h]
      · rw [← Nat.not_lt]
        by_cases h : samples < 2 * m <;> simp [Checker.count, h]
      · exact ⟨fun hmode hr => (s.checker.count_eq samples m fields hf hr).1 hmode,
          fun hmode hr => (s.checker.count_eq samples m fields hf hr).2.1 hmode,
          fun hr => (s.checker.count_eq samples m fields hf hr).2.2⟩

end Sys2Proof.Machine
end

section
/-!
RESULTS. The reports of a field (R171 to R184): their formation, the choice of condition entries, and the byte places
of the payloads.
-/

namespace Sys2Proof.Machine

open Sys2Proof

/-! ### The choice of condition entries (R178) -/

/-- The condition entries of a list, kind after kind in the order of `ks` (R178). -/
def byKind (ks : List ConditionKind) (l : List Condition) : List Condition :=
  ks.flatMap fun k => l.filter (·.kind == k)

theorem Reports.chosen_eq (r : Reports) :
    r.chosen =
      (byKind conditionKinds (r.conditions.filter fun c => r.mask.getLsbD c.kind.code == false)).take 8 := by
  have hbool : ∀ b : Bool, (b == false) = !b := by decide
  unfold Reports.chosen byKind
  simp only [List.filter_filter, Reports.masked, hbool]

theorem mem_conditionKinds (k : ConditionKind) : k ∈ conditionKinds := by cases k <;> decide

theorem conditionKinds_nodup : conditionKinds.Nodup := by decide

theorem length_byKind (ks : List ConditionKind) (hks : ks.Nodup) (l : List Condition) (hl : ∀ c ∈ l, c.kind ∈ ks) :
    (byKind ks l).length = l.length := by
  induction ks generalizing l with
  | nil =>
    cases l with
    | nil => rfl
    | cons c l => exact absurd (hl c List.mem_cons_self) List.not_mem_nil
  | cons k ks ih =>
    obtain ⟨hk, hks⟩ := List.nodup_cons.1 hks
    have hrest := ih hks (l.filter (fun c => !(c.kind == k))) fun c hc => by
      obtain ⟨hcl, hck⟩ := List.mem_filter.1 hc
      exact (List.mem_cons.1 (hl c hcl)).resolve_left (by simpa using hck)
    have hsame : byKind ks (l.filter fun c => !(c.kind == k)) = byKind ks l := by
      unfold byKind
      refine List.flatMap_congr fun k' hk' => ?_
      rw [List.filter_filter]
      refine List.filter_congr fun c _ => ?_
      have : k' ≠ k := fun h => hk (h ▸ hk')
      by_cases hck : c.kind = k'
      · simp [hck, this]
      · simp [hck]
    rw [hsame] at hrest
    have hhead : (byKind (k :: ks) l).length = (l.filter (·.kind == k)).length + (byKind ks l).length := by
      simp [byKind]
    rw [hhead, hrest]
    exact (List.length_eq_length_filter_add _).symm

theorem byKind_pairwise (l : List Condition) :
    (byKind conditionKinds l).Pairwise fun a b => a.kind.code ≤ b.kind.code := by
  have hkinds : conditionKinds.Pairwise fun j k => j.code ≤ k.code := by decide
  have hkind : ∀ {k : ConditionKind} {c : Condition}, c ∈ l.filter (·.kind == k) → c.kind = k := fun hc =>
    beq_iff_eq.1 (List.mem_filter.1 hc).2
  refine List.pairwise_flatMap.2 ⟨fun k _ => ?_, hkinds.imp fun {j k} h a ha b hb => ?_⟩
  · exact List.pairwise_of_forall_mem_list fun a ha b hb => by rw [hkind ha, hkind hb]
  · rw [hkind ha, hkind hb]
    exact h

/-- Sorted by kind, the entries of one kind stay in their order (R178). -/
theorem filter_byKind (ks : List ConditionKind) (hks : ks.Nodup) {k : ConditionKind} (hk : k ∈ ks)
    (l : List Condition) : (byKind ks l).filter (·.kind == k) = l.filter (·.kind == k) := by
  have hone : ∀ j, (l.filter (·.kind == j)).filter (·.kind == k) = if j = k then l.filter (·.kind == k) else [] := by
    intro j
    rw [List.filter_filter]
    split
    next h => subst h; simp
    next h =>
      refine List.filter_eq_nil_iff.2 fun c _ => ?_
      simp only [Bool.and_eq_true, beq_iff_eq, not_and]
      rintro rfl rfl
      exact h rfl
  unfold byKind
  rw [List.filter_flatMap]
  simp only [hone]
  induction ks with
  | nil => exact absurd hk List.not_mem_nil
  | cons j ks ih =>
    obtain ⟨hj, hks⟩ := List.nodup_cons.1 hks
    rw [List.flatMap_cons]
    by_cases hjk : j = k
    · subst hjk
      have hnil : (ks.flatMap fun i => if i = j then l.filter (·.kind == j) else []) = [] :=
        List.flatMap_eq_nil_iff.2 fun i hi => if_neg fun h : i = j => hj (h ▸ hi)
      rw [hnil, if_pos rfl, List.append_nil]
    · rw [if_neg hjk, ih hks ((List.mem_cons.1 hk).resolve_left (Ne.symm hjk)), List.nil_append]

/-- The entries carried are the first 8 by priority (R178). -/
theorem chosenByPriority_take (u : List Condition) : chosenByPriority u ((byKind conditionKinds u).take 8) := by
  have hlen := length_byKind conditionKinds conditionKinds_nodup u fun c _ => mem_conditionKinds c.kind
  have hsorted := byKind_pairwise u
  have hfilter : ∀ k, (byKind conditionKinds u).filter (·.kind == k) = u.filter (·.kind == k) := fun k =>
    filter_byKind conditionKinds conditionKinds_nodup (mem_conditionKinds k) u
  generalize byKind conditionKinds u = l at *
  refine ⟨by rw [List.length_take, hlen], hsorted.sublist (List.take_sublist 8 l), fun k => ⟨?_, fun hne => ?_⟩⟩
  · rw [← hfilter]
    exact (List.take_prefix 8 l).filter _
  · have hrest : ∃ c ∈ l.drop 8, c.kind = k := by
      by_contra hnone
      refine hne ?_
      have hnil : (l.drop 8).filter (·.kind == k) = [] := List.filter_eq_nil_iff.2 fun c hc => by
        simpa using fun h => hnone ⟨c, hc, h⟩
      rw [← hfilter, ← congrArg (List.filter (·.kind == k)) (List.take_append_drop 8 l), List.filter_append, hnil,
        List.append_nil]
    obtain ⟨c, hc, rfl⟩ := hrest
    have hlong : 8 < l.length := by
      by_contra h
      rw [List.drop_eq_nil_of_le (by omega)] at hc
      exact absurd hc List.not_mem_nil
    rw [← List.take_append_drop 8 l] at hsorted
    exact ⟨by rw [List.length_take]; omega, fun x hx => (List.pairwise_append.1 hsorted).2.2 x hx c hc⟩

/-! ### The formation (R171, R173, R176) -/

theorem Reports.hasNotices_iff (r : Reports) :
    r.hasNotices = true ↔
      r.notices ≠ [] ∨ r.overflow ≠ 0 ∨ (∃ c ∈ r.conditions, r.mask.getLsbD c.kind.code = false) ∨
        r.listFull = true := by
  simp [Reports.hasNotices, Reports.masked, Nat.pos_iff_ne_zero, or_assoc]

theorem State.formStatus_eq (s : State) :
    s.formStatus =
      { s with
        packets := s.packets ++ if s.reports.enables.status then [framePacket .status s.statusPayload] else []
        checker := if s.reports.enables.status then { s.checker with snapshot := none } else s.checker } := by
  unfold State.formStatus
  split
  · rfl
  · rw [List.append_nil]

theorem State.formTallyPacket_eq (s : State) :
    s.formTallyPacket =
      { s with
        packets := s.packets ++ if s.reports.enables.tally then [framePacket .tally s.tallyPayload] else [] } := by
  unfold State.formTallyPacket
  split
  · rfl
  · rw [List.append_nil]

theorem State.formNotices_eq (s : State) :
    s.formNotices =
      { s with
        packets :=
          s.packets ++
            if s.reports.enables.notices ∧ s.reports.hasNotices then [framePacket .notices s.noticesPayload] else []
        reports :=
          if s.reports.enables.notices ∧ s.reports.hasNotices then { s.reports with notices := [], overflow := 0 }
          else s.reports } := by
  unfold State.formNotices
  split
  · rfl
  · rw [List.append_nil]

/-- What a row forms, packet by packet (R173). -/
theorem State.formReports_eq (s : State) (h : s.timing.started = true) :
    s.formReports =
      { s with
        packets :=
          (if s.reports.enables.status then [framePacket .status s.statusPayload] else []) ++
            (if s.reports.enables.tally then [framePacket .tally s.tallyPayload] else []) ++
            (if s.reports.enables.notices ∧ s.reports.hasNotices then [framePacket .notices s.noticesPayload] else [])
        checker := if s.reports.enables.status then { s.checker with snapshot := none } else s.checker
        reports :=
          if s.reports.enables.notices ∧ s.reports.hasNotices then { s.reports with notices := [], overflow := 0 }
          else s.reports } := by
  rw [State.formReports, if_pos h, State.formNotices_eq, State.formTallyPacket_eq, State.formStatus_eq]
  rfl

/-! ### The byte places (R183, R184) -/

section
variable {α : Type} (f : α → List Byte) (k : Nat) (hk : ∀ x, (f x).length = k)
include hk

theorem length_flatMap_const (l : List α) : (l.flatMap f).length = k * l.length := by
  induction l with
  | nil => rfl
  | cons x l ih => rw [List.flatMap_cons, List.length_append, ih, hk, List.length_cons, Nat.mul_add]; omega

/-- Record `i` of a run of records of one length. -/
theorem byteAt_flatMap (l : List α) (q : List Byte) {i : Nat} {x : α} (hi : l[i]? = some x) {j : Nat} (hj : j < k) :
    byteAt (l.flatMap f ++ q) (k * i + j) = byteAt (f x) j := by
  induction l generalizing i with
  | nil => cases hi
  | cons y l ih =>
    rw [List.flatMap_cons, List.append_assoc]
    cases i with
    | zero =>
      obtain rfl : y = x := by simpa using hi
      rw [Nat.mul_zero, Nat.zero_add]
      exact byteAt_append_left _ _ (by rw [hk]; exact hj)
    | succ i =>
      have hplace : k * (i + 1) + j = (f y).length + (k * i + j) := by rw [hk, Nat.mul_succ]; omega
      rw [hplace, byteAt_append_right]
      exact ih (by simpa using hi)

end

theorem byteAt_append_from (p q : List Byte) {n : Nat} (h : p.length = n) (j : Nat) :
    byteAt (p ++ q) (n + j) = byteAt q j := h ▸ byteAt_append_right p q j

/-- A 16-bit number is read back from its two bytes (R183). -/
theorem fieldAt_word (w : BitVec 16) (q : List Byte) : fieldAt (fieldBytes w.toNat ++ q) 0 = w.toNat :=
  (fieldAt_fieldBytes _ q).trans (Nat.mod_eq_of_lt w.isLt)

theorem byteOf_bool (b : Bool) : (byteOf b.toNat).toNat = b.toNat := by cases b <;> rfl

/-- The bits of a byte that carries a bitmap (R183). -/
theorem byteOf_bitmap_testBit (l : List Bool) {n : Nat} (h : n ≤ 7) :
    (byteOf (bitmap l)).toNat.testBit n = l.getD n false := by
  rw [byteOf_toNat, show 256 = 2 ^ 8 from rfl, Nat.testBit_mod_two_pow, bitmap_testBit]
  simp [show n < 8 by omega]

/-- Two places that hold the same two bytes hold the same field (R183). -/
theorem fieldAt_congr {p q : List Byte} {i j : Nat} (h : ∀ k, k < 2 → byteAt p (i + k) = byteAt q (j + k)) :
    fieldAt p i = fieldAt q j := by
  rw [fieldAt, fieldAt, h 1 (by decide)]
  exact congrArg (· * 256 + _) (h 0 (by decide))

/-! ### TALLY (R184) -/

/-- The bits of four bytes that carry a set of sources (R183). -/
theorem longAt_sources (x : SourceSet) (q : List Byte) (n : Nat) :
    (longAt (longBytes (bitmap x.toList) ++ q) 0).testBit n = look x n false := by
  have hlt : bitmap x.toList < 4294967296 :=
    (bitmap_lt x.toList).trans (by rw [Vector.length_toList]; decide)
  rw [longAt_longBytes, Nat.mod_eq_of_lt hlt, bitmap_testBit]
  simp [look, List.getD_eq_getElem?_getD]

theorem State.tallyPayload_laidOut (s : State) : s.tallyLaidOut s.tallyPayload := by
  have hp : s.tallyPayload = fieldBytes s.status.number.toNat ++
      (longBytes (bitmap s.tally.program.toList) ++ (longBytes (bitmap s.tally.preview.toList) ++ [])) := by
    rw [State.tallyPayload, List.append_nil, List.append_assoc]
  rw [hp]
  refine ⟨fieldAt_word _ _, fun n => ?_, fun n => ?_⟩
  · have h := longAt_append_right (fieldBytes s.status.number.toNat)
      (longBytes (bitmap s.tally.program.toList) ++ (longBytes (bitmap s.tally.preview.toList) ++ [])) 0
    exact (congrArg (Nat.testBit · n) h).trans (longAt_sources _ _ n)
  · have h := longAt_append_right (fieldBytes s.status.number.toNat)
      (longBytes (bitmap s.tally.program.toList) ++ (longBytes (bitmap s.tally.preview.toList) ++ [])) 4
    have h' := longAt_append_right (longBytes (bitmap s.tally.program.toList))
      (longBytes (bitmap s.tally.preview.toList) ++ []) 0
    exact (congrArg (Nat.testBit · n) (h.trans h')).trans (longAt_sources _ _ n)

/-! ### NOTICES (R178, R184) -/

theorem Notice.length_bytes (x : Notice) : x.bytes.length = 5 := rfl

theorem Condition.length_bytes (x : Condition) : x.bytes.length = 9 := rfl

theorem State.length_noticesPayload (s : State) :
    s.noticesPayload.length = 7 + 5 * s.reports.notices.length + 9 * s.reports.chosen.length := by
  simp only [State.noticesPayload, List.length_append, List.length_cons, List.length_nil,
    length_flatMap_const _ _ Notice.length_bytes, length_flatMap_const _ _ Condition.length_bytes]
  rw [show (fieldBytes s.status.number.toNat).length = 2 from rfl]
  omega

theorem ConditionKind.byteOf_code (k : ConditionKind) : (byteOf k.code).toNat = k.code := by cases k <;> rfl

theorem Reason.byteOf_code (r : Reason) : (byteOf r.code).toNat = r.code := by cases r <;> rfl

theorem State.noticesPayload_laidOut (s : State) : s.noticesLaidOut s.reports.chosen s.noticesPayload := by
  rintro n c rfl rfl
  generalize hT : [byteOf s.reports.conditions.length, byteOf s.reports.listFull.toNat] = T
  generalize hC : byteOf s.reports.chosen.length :: (s.reports.chosen.flatMap Condition.bytes ++ T) = C
  generalize hN : s.reports.notices.flatMap Notice.bytes ++ C = N
  have hp : s.noticesPayload =
      (fieldBytes s.status.number.toNat ++ [byteOf s.reports.notices.length, byteOf s.reports.overflow]) ++ N := by
    subst hN hC hT
    simp [State.noticesPayload]
  have hnotices : ∀ j, byteAt s.noticesPayload (4 + j) = byteAt N j := fun j => by
    rw [hp]; exact byteAt_append_from _ _ rfl j
  have hconditions : ∀ j, byteAt s.noticesPayload (4 + 5 * s.reports.notices.length + j) = byteAt C j := fun j => by
    rw [Nat.add_assoc, hnotices, ← hN]
    exact byteAt_append_from _ _ (length_flatMap_const _ _ Notice.length_bytes _) j
  have hentries : ∀ j, byteAt s.noticesPayload (5 + 5 * s.reports.notices.length + j) =
      byteAt (s.reports.chosen.flatMap Condition.bytes ++ T) j := fun j => by
    rw [show 5 + 5 * s.reports.notices.length + j = 4 + 5 * s.reports.notices.length + (j + 1) by omega, hconditions,
      ← hC, byteAt_cons_succ]
  have htail : ∀ j, byteAt s.noticesPayload (5 + 5 * s.reports.notices.length + 9 * s.reports.chosen.length + j) =
      byteAt T j := fun j => by
    rw [Nat.add_assoc, hentries]
    exact byteAt_append_from _ _ (length_flatMap_const _ _ Condition.length_bytes _) j
  have hnotice : ∀ i x, s.reports.notices[i]? = some x → ∀ j, j < 5 →
      ∀ k, k = 4 + 5 * i + j → byteAt s.noticesPayload k = byteAt x.bytes j := fun i x hx j hj k hk => by
    rw [hk, Nat.add_assoc, hnotices, ← hN]
    exact byteAt_flatMap _ _ Notice.length_bytes _ _ hx hj
  have hcondition : ∀ i x, s.reports.chosen[i]? = some x → ∀ j, j < 9 →
      byteAt s.noticesPayload (5 + 5 * s.reports.notices.length + 9 * i + j) = byteAt x.bytes j := fun i x hx j hj => by
    rw [Nat.add_assoc, hentries]
    exact byteAt_flatMap _ _ Condition.length_bytes _ _ hx hj
  refine ⟨by rw [hp, List.append_assoc]; exact fieldAt_word _ _, ?_, ?_, fun i x hx => ?_, ?_, ?_, ?_, ?_⟩
  · rw [hp]; exact byteOf_toNat _
  · rw [hp]; exact byteOf_toNat _
  · have h := hnotice i x hx
    refine ⟨?_, (h 2 (by decide) _ (by omega)).trans (byteOf_toNat _),
      (h 3 (by decide) _ (by omega)).trans (Reason.byteOf_code _), (h 4 (by decide) _ (by omega)).trans (byteOf_toNat _)⟩
    exact (fieldAt_congr (q := x.bytes) (j := 0) fun k hk => by rw [h k (by omega) _ rfl, Nat.zero_add]).trans
      (fieldAt_word x.tag _)
  · exact (hconditions 0).trans (by rw [← hC]; exact byteOf_toNat _)
  · rintro i x hx _ rfl
    have h := hcondition i x hx
    have hfield : ∀ j, j + 1 < 9 →
        fieldAt s.noticesPayload (5 + 5 * s.reports.notices.length + 9 * i + j) = fieldAt x.bytes j := fun j hj =>
      fieldAt_congr fun k hk => by rw [Nat.add_assoc _ j k, h (j + k) (by omega)]
    refine ⟨(h 0 (by decide)).trans (ConditionKind.byteOf_code _), (h 1 (by decide)).trans (byteOf_toNat _),
      (hfield 2 (by decide)).trans (fieldAt_word x.first []), (hfield 4 (by decide)).trans (fieldAt_word x.last []),
      (h 6 (by decide)).trans (byteOf_toNat _), ?_⟩
    rw [hfield 7 (by decide)]
    have hdetail : fieldAt x.bytes 7 = (BitVec.ofInt 16 x.detail).toNat := fieldAt_word (BitVec.ofInt 16 x.detail) []
    rw [hdetail, BitVec.toNat_ofInt]
    exact Int.toNat_of_nonneg (Int.emod_nonneg _ (by decide))
  · exact (htail 0).trans (by rw [← hT]; exact byteOf_toNat _)
  · rw [show 6 + 5 * s.reports.notices.length + 9 * s.reports.chosen.length =
      5 + 5 * s.reports.notices.length + 9 * s.reports.chosen.length + 1 by omega, htail 1, ← hT]
    exact byteOf_bool _

/-! ### STATUS (R184) -/

/-- The bytes of STATUS before those of the engines. -/
def StatusView.head (v : StatusView) : List Byte :=
  fieldBytes v.number.toNat ++
    [byteOf v.parity.toNat, byteOf v.format.code, byteOf v.ref.code, byteOf v.cause.code,
      byteOf v.depth, byteOf v.hold.toNat, byteOf (v.bypass.getD 255)]

/-- The bytes of STATUS between those of the engines and those of the lanes. -/
def StatusView.middle (v : StatusView) : List Byte :=
  [byteOf (bitmap v.onAir), byteOf v.ftb.code] ++ v.lever1.bytes ++ v.lever2.bytes ++
    [byteOf (bitmap [v.dirtyShapes, v.dirtyCurves, v.dirtySources])]

/-- The bytes of STATUS after those of the lanes. -/
def State.statusTail (s : State) : List Byte :=
  [byteOf s.status.checker.code, byteOf s.checker.snapshot.isSome.toNat] ++ snapshotBytes s.checker.snapshot

theorem State.statusPayload_eq (s : State) :
    s.statusPayload =
      s.status.head ++
        (s.status.engines.flatMap EngineReport.bytes ++ (s.status.middle ++ (s.laneStateBytes ++ s.statusTail))) := by
  simp only [State.statusPayload, StatusView.head, StatusView.middle, State.statusTail, List.append_assoc]

theorem EngineReport.length_bytes (r : EngineReport) : r.bytes.length = 8 := rfl

theorem State.length_laneStateBytes (s : State) : s.laneStateBytes.length = 25 := by
  rw [State.laneStateBytes, List.length_map, Vector.length_toList]

/-- The byte of a lane in STATUS (R11, R184). -/
theorem State.laneStateBytes_byte (s : State) (q : List Byte) {n : Nat} (h1 : 1 ≤ n) (h25 : n ≤ 25) :
    byteAt (s.laneStateBytes ++ q) (n - 1) = (s.lane n).decision.state.code := by
  have hn : n - 1 < 25 := by omega
  rw [byteAt_append_left _ _ (by rw [s.length_laneStateBytes]; exact hn), byteAt, State.laneStateBytes, State.lane,
    look_of_lt _ hn]
  simp only [List.getD_eq_getElem?_getD, List.getElem?_map, Vector.getElem?_toList, Vector.getElem?_eq_getElem hn,
    Option.map_some, Option.getD_some]
  cases s.lanes[n - 1].decision.state <;> rfl

theorem EngineReport.bytes_laidOut (r : EngineReport) :
    byteAt r.bytes 0 = r.state.code ∧ fieldAt r.bytes 1 = r.j % 65536 ∧ fieldAt r.bytes 3 = r.rate % 65536 ∧
      fieldAt r.bytes 5 = r.shown % 65536 ∧ byteAt r.bytes 7 = r.forced.toNat :=
  ⟨by cases h : r.state <;> simp [EngineReport.bytes, h] <;> rfl, fieldAt_fieldBytes r.j [], fieldAt_fieldBytes r.rate [],
    fieldAt_fieldBytes r.shown [], byteOf_bool r.forced⟩

/-- The bytes from place 85 on (R170, R184). -/
theorem State.statusTail_laidOut (s : State) :
    s.statusTail.length = 12 ∧ byteAt s.statusTail 0 = s.status.checker.code ∧
      (∀ x, s.checker.snapshot = some x →
        byteAt s.statusTail 1 = 1 ∧ byteAt s.statusTail 2 = x.state.code ∧ fieldAt s.statusTail 3 = x.checked % 65536 ∧
          fieldAt s.statusTail 5 = x.errored % 65536 ∧ fieldAt s.statusTail 7 = x.erroredFields % 65536 ∧
          byteAt s.statusTail 9 = x.overflow.toNat ∧ fieldAt s.statusTail 10 = x.field.toNat) ∧
      (s.checker.snapshot = none → ∀ i, byteAt s.statusTail (1 + i) = 0) := by
  cases hs : s.checker.snapshot with
  | none =>
    have ht : s.statusTail = byteOf s.status.checker.code :: List.replicate 11 0#8 := by
      rw [State.statusTail, hs]; rfl
    rw [ht]
    refine ⟨rfl, by cases s.status.checker <;> rfl, nofun, fun _ i => ?_⟩
    rw [Nat.add_comm, byteAt_cons_succ, byteAt, List.getD_eq_getElem?_getD, List.getElem?_replicate]
    split <;> rfl
  | some x =>
    have ht : s.statusTail = byteOf s.status.checker.code :: 1#8 :: snapshotBytes (some x) := by
      rw [State.statusTail, hs]; rfl
    rw [ht]
    refine ⟨rfl, by cases s.status.checker <;> rfl, ?_, nofun⟩
    rintro _ ⟨⟩
    refine ⟨rfl, ?_, fieldAt_fieldBytes x.checked [], fieldAt_fieldBytes x.errored [], fieldAt_fieldBytes x.erroredFields [],
      byteOf_bool x.overflow, fieldAt_word x.field []⟩
    show (byteOf x.state.code).toNat = _
    cases x.state <;> rfl

theorem StatusView.head_laidOut (v : StatusView) :
    v.head.length = 9 ∧ fieldAt v.head 0 = v.number.toNat ∧ byteAt v.head 2 = v.parity.toNat ∧
      byteAt v.head 3 = v.format.code ∧ byteAt v.head 4 = v.ref.code ∧ byteAt v.head 5 = v.cause.code ∧
      byteAt v.head 6 = v.depth % 256 ∧ byteAt v.head 7 = v.hold.toNat ∧
      byteAt v.head 8 = match v.bypass with | some n => n % 256 | none => 255 := by
  refine ⟨rfl, fieldAt_word v.number _, byteOf_bool v.parity, ?_, ?_, ?_, byteOf_toNat v.depth, byteOf_bool v.hold, ?_⟩
  · show (byteOf v.format.code).toNat = _
    cases v.format <;> rfl
  · show (byteOf v.ref.code).toNat = _
    cases v.ref <;> rfl
  · show (byteOf v.cause.code).toNat = _
    cases v.cause <;> rfl
  · show (byteOf (v.bypass.getD 255)).toNat = _
    cases v.bypass with
    | none => rfl
    | some n => exact byteOf_toNat n

theorem Sense.byteOf_code (x : Sense) : (byteOf x.code).toNat = x.code := by cases x <;> rfl

theorem StatusView.middle_laidOut (v : StatusView) :
    v.middle.length = 11 ∧ (∀ n, n ≤ 7 → (byteAt v.middle 0).testBit n = v.onAir.getD n false) ∧
      byteAt v.middle 1 = v.ftb.code ∧ fieldAt v.middle 2 = v.lever1.last % 65536 ∧
      byteAt v.middle 4 = v.lever1.sense.code ∧ byteAt v.middle 5 = v.lever1.offside.toNat ∧
      fieldAt v.middle 6 = v.lever2.last % 65536 ∧ byteAt v.middle 8 = v.lever2.sense.code ∧
      byteAt v.middle 9 = v.lever2.offside.toNat ∧ (byteAt v.middle 10).testBit 0 = v.dirtyShapes ∧
      (byteAt v.middle 10).testBit 1 = v.dirtyCurves ∧ (byteAt v.middle 10).testBit 2 = v.dirtySources ∧
      byteAt v.middle 10 ≤ 7 := by
  have hdirty : ∀ n, n ≤ 7 → (byteAt v.middle 10).testBit n = [v.dirtyShapes, v.dirtyCurves, v.dirtySources].getD n false :=
    fun n hn => byteOf_bitmap_testBit _ hn
  refine ⟨rfl, fun n hn => byteOf_bitmap_testBit v.onAir hn, ?_, fieldAt_fieldBytes v.lever1.last [],
    Sense.byteOf_code v.lever1.sense, byteOf_bool v.lever1.offside, fieldAt_fieldBytes v.lever2.last [],
    Sense.byteOf_code v.lever2.sense, byteOf_bool v.lever2.offside, hdirty 0 (by decide), hdirty 1 (by decide),
    hdirty 2 (by decide), ?_⟩
  · show (byteOf v.ftb.code).toNat = _
    cases v.ftb <;> rfl
  · show (byteOf (bitmap [v.dirtyShapes, v.dirtyCurves, v.dirtySources])).toNat ≤ 7
    have := bitmap_lt [v.dirtyShapes, v.dirtyCurves, v.dirtySources]
    rw [byteOf_toNat]
    simp only [List.length_cons, List.length_nil] at this
    omega

/-- The parts of STATUS at their places (R184). -/
theorem State.statusPayload_parts (s : State) (h5 : s.status.engines.length = 5) :
    (∀ j, j < 9 → byteAt s.statusPayload j = byteAt s.status.head j) ∧
      (∀ e r, s.status.engines[e]? = some r → ∀ j, j < 8 → byteAt s.statusPayload (9 + 8 * e + j) = byteAt r.bytes j) ∧
      (∀ j, j < 11 → byteAt s.statusPayload (49 + j) = byteAt s.status.middle j) ∧
      (∀ n, 1 ≤ n → n ≤ 25 → byteAt s.statusPayload (59 + n) = (s.lane n).decision.state.code) ∧
      ∀ j, byteAt s.statusPayload (85 + j) = byteAt s.statusTail j := by
  rw [s.statusPayload_eq]
  have hengines := fun q j => byteAt_append_from (s.status.engines.flatMap EngineReport.bytes) q
    ((length_flatMap_const _ _ EngineReport.length_bytes _).trans (by rw [h5])) j
  have hhead := fun q j => byteAt_append_from s.status.head q s.status.head_laidOut.1 j
  have hmiddle := fun q j => byteAt_append_from s.status.middle q s.status.middle_laidOut.1 j
  refine ⟨fun j hj => byteAt_append_left _ _ hj, fun e r hr j hj => ?_, fun j hj => ?_, fun n h1 h25 => ?_, fun j => ?_⟩
  · rw [Nat.add_assoc, hhead]
    exact byteAt_flatMap _ _ EngineReport.length_bytes _ _ hr hj
  · rw [show 49 + j = 9 + (8 * 5 + j) by omega, hhead, hengines]
    exact byteAt_append_left _ _ hj
  · rw [show 59 + n = 9 + (8 * 5 + (11 + (n - 1))) by omega, hhead, hengines, hmiddle]
    exact s.laneStateBytes_byte _ h1 h25
  · rw [show 85 + j = 9 + (8 * 5 + (11 + (25 + j))) by omega, hhead, hengines, hmiddle]
    exact byteAt_append_from _ _ s.length_laneStateBytes j

theorem State.statusPayload_length (s : State) (h5 : s.status.engines.length = 5) : s.statusPayload.length = 97 := by
  have hhead := s.status.head_laidOut.1
  have hmiddle := s.status.middle_laidOut.1
  have htail := s.statusTail_laidOut.1
  rw [s.statusPayload_eq]
  simp only [List.length_append, length_flatMap_const _ _ EngineReport.length_bytes, s.length_laneStateBytes, hhead,
    hmiddle, htail, h5]

theorem State.statusPayload_laidOut (s : State) (h5 : s.status.engines.length = 5) :
    s.statusLaidOut s.status s.statusPayload := by
  obtain ⟨hhead, hengine, hmiddle, hlane, htail⟩ := s.statusPayload_parts h5
  obtain ⟨-, h0, h2, h3, h4, h5, h6, h7, h8⟩ := s.status.head_laidOut
  obtain ⟨-, m0, m1, m2, m4, m5, m6, m8, m9, d0, d1, d2, dle⟩ := s.status.middle_laidOut
  obtain ⟨-, t0, tsome, tnone⟩ := s.statusTail_laidOut
  have hheadField : fieldAt s.statusPayload 0 = fieldAt s.status.head 0 :=
    fieldAt_congr fun k hk => by rw [Nat.zero_add]; exact hhead k (by omega)
  have hmiddleField : ∀ j, j + 1 < 11 → fieldAt s.statusPayload (49 + j) = fieldAt s.status.middle j := fun j hj =>
    fieldAt_congr fun k hk => by rw [Nat.add_assoc]; exact hmiddle (j + k) (by omega)
  have htailField : ∀ j, fieldAt s.statusPayload (85 + j) = fieldAt s.statusTail j := fun j =>
    fieldAt_congr fun k hk => by rw [Nat.add_assoc]; exact htail (j + k)
  refine ⟨hheadField.trans h0, (hhead 2 (by decide)).trans h2, (hhead 3 (by decide)).trans h3,
    (hhead 4 (by decide)).trans h4, (hhead 5 (by decide)).trans h5, (hhead 6 (by decide)).trans h6,
    (hhead 7 (by decide)).trans h7, (hhead 8 (by decide)).trans h8, fun e r hr => ?_,
    fun n hn => (congrArg (Nat.testBit · n) (hmiddle 0 (by decide))).trans (m0 n hn),
    (hmiddle 1 (by decide)).trans m1, (hmiddleField 2 (by decide)).trans m2, (hmiddle 4 (by decide)).trans m4,
    (hmiddle 5 (by decide)).trans m5, (hmiddleField 6 (by decide)).trans m6, (hmiddle 8 (by decide)).trans m8,
    (hmiddle 9 (by decide)).trans m9, ?_, ?_, ?_, ?_, hlane, (htail 0).trans t0, fun x hx => ?_, fun hx i hi _ => ?_⟩
  · have h := hengine e r hr
    obtain ⟨b0, b1, b3, b5, b7⟩ := r.bytes_laidOut
    have hfield : ∀ j, j + 1 < 8 → ∀ k, k = 9 + 8 * e + j → fieldAt s.statusPayload k = fieldAt r.bytes j :=
      fun j hj k hk => fieldAt_congr fun i hi => by rw [hk, Nat.add_assoc _ j i, h (j + i) (by omega)]
    refine ⟨(h 0 (by decide)).trans b0, (hfield 1 (by decide) _ (by omega)).trans b1,
      (hfield 3 (by decide) _ (by omega)).trans b3, (hfield 5 (by decide) _ (by omega)).trans b5, ?_⟩
    rw [show 16 + 8 * e = 9 + 8 * e + 7 by omega, h 7 (by decide), b7]
  · exact (congrArg (Nat.testBit · 0) (hmiddle 10 (by decide))).trans d0
  · exact (congrArg (Nat.testBit · 1) (hmiddle 10 (by decide))).trans d1
  · exact (congrArg (Nat.testBit · 2) (hmiddle 10 (by decide))).trans d2
  · exact (hmiddle 10 (by decide)).trans_le dle
  · obtain ⟨x1, x2, x3, x5, x7, x9, x10⟩ := tsome x hx
    exact ⟨(htail 1).trans x1, (htail 2).trans x2, (htailField 3).trans x3, (htailField 5).trans x5,
      (htailField 7).trans x7, (htail 9).trans x9, (htailField 10).trans x10⟩
  · have h := tnone hx (i - 86)
    rw [← htail, show 85 + (1 + (i - 86)) = i by omega] at h
    exact h

/-- Settles O46: the formation by its three packets, the payloads by their parts. -/
theorem reportsAreFormedInOrder : Obligations.ReportsAreFormedInOrder := by
  refine ⟨fun s => ⟨s.formReports, rfl, fun h => ?_, fun h carries hcarries => ?_⟩, fun s =>
    ⟨s.statusPayload_length, rfl, s.length_noticesPayload, ?_, s.statusPayload_laidOut, s.tallyPayload_laidOut, s.noticesPayload_laidOut⟩⟩
  · rw [State.formReports, if_neg (by simp [h])]
  · rw [← Reports.hasNotices_iff] at hcarries
    rw [s.formReports_eq h]
    refine ⟨rfl, rfl, fun hc => ?_, fun hc => ?_⟩
    · have hif := hcarries.1 hc
      simp only [hif, and_self, if_true]
    · have hif : ¬(s.reports.enables.notices = true ∧ s.reports.hasNotices = true) := fun h => hc (hcarries.2 h)
      simp only [if_neg hif, List.append_nil, true_and]
  · rw [s.reports.chosen_eq]
    exact chosenByPriority_take _

end Sys2Proof.Machine
end

section
/-!
RESULTS. The tally sets and the STATUS items of a field (R106, R152 to R156, R174).
-/

namespace Sys2Proof.Machine

open Sys2Proof

/-! ### The contributing buses (R152) -/

theorem look_sourceSet (test : Nat → Bool) {n : Nat} (h : n ≤ 30) : look (sourceSet test) n false = test n := by
  rw [look_of_lt _ (show n < 31 by omega)]
  simp [sourceSet]

theorem fillBus_eq_keyBus {n : Nat} (h : n ≤ 7) : fillBus n = keyBus n := by
  interval_cases n <;> rfl

theorem keyBus_bank1 {n : Nat} (h : n ≤ 2) : 2 ≤ keyBus n ∧ keyBus n + 1 ≤ 7 := by
  interval_cases n <;> decide

theorem keyBus_downstream {n : Nat} (h3 : 3 ≤ n) (h7 : n ≤ 7) : 10 ≤ keyBus n ∧ keyBus n + 1 ≤ 19 := by
  interval_cases n <;> decide

theorem invertedFullMask_iff (k : KeySettings) :
    KeySettings.invertedFullMask k = false ↔ ¬(k.maskShape ≠ none ∧ k.maskSize = 4095 ∧ k.maskInvert = true) := by
  unfold KeySettings.invertedFullMask
  cases k.maskShape <;> simp

/-- Keyer `n` contributes through bus `b` at weight `w` (R152). -/
def State.keyHolds (s : State) (n w b : Nat) : Prop :=
  (b = keyBus n ∨ b = keyBus n + 1) ∧ 0 < w ∧
    ¬((s.keyer n).settings.maskShape ≠ none ∧ (s.keyer n).settings.maskSize = 4095 ∧
      (s.keyer n).settings.maskInvert = true)

section
variable (s : State)

theorem State.mem_keyBuses {n : Nat} (hn : n ≤ 7) (w b : Nat) : b ∈ s.keyBuses n w ↔ s.keyHolds n w b := by
  unfold State.keyBuses State.keyHolds
  rw [fillBus_eq_keyBus hn, ← invertedFullMask_iff]
  split
  next h => simp [h]
  next h => simp only [List.not_mem_nil, h, and_false]

theorem mem_backgroundBuses (a w b : Nat) : b ∈ backgroundBuses a w ↔ b = a ∧ w < 1024 ∨ b = a + 1 ∧ 0 < w := by
  unfold backgroundBuses
  rw [List.mem_append]
  split <;> split <;> simp_all

theorem State.mem_bankBuses {first : Nat} (hf : first ≤ 3) (a w b : Nat) (kf : Nat → Nat) :
    b ∈ s.bankBuses a w first kf ↔
      (b = a ∧ w < 1024 ∨ b = a + 1 ∧ 0 < w) ∨ ∃ n, first ≤ n ∧ n ≤ first + 2 ∧ s.keyHolds n (kf n) b := by
  simp only [State.bankBuses, List.mem_append, mem_backgroundBuses, s.mem_keyBuses (n := first) (by omega),
    s.mem_keyBuses (n := first + 1) (by omega), s.mem_keyBuses (n := first + 2) (by omega), or_assoc]
  refine or_congr_right (or_congr_right ⟨?_, ?_⟩)
  · rintro (h | h | h)
    · exact ⟨_, le_refl _, by omega, h⟩
    · exact ⟨_, by omega, by omega, h⟩
    · exact ⟨_, by omega, le_refl _, h⟩
  · rintro ⟨n, h1, h2, h⟩
    obtain rfl | rfl | rfl : n = first ∨ n = first + 1 ∨ n = first + 2 := by omega
    · exact .inl h
    · exact .inr (.inl h)
    · exact .inr (.inr h)

theorem State.mem_downstreamBuses (b : Nat) :
    b ∈ s.downstreamBuses ↔ ∃ n, 6 ≤ n ∧ n ≤ 7 ∧ s.keyHolds n (s.keyFade n) b := by
  rw [State.downstreamBuses, List.mem_append, s.mem_keyBuses (by decide), s.mem_keyBuses (by decide)]
  constructor
  · rintro (h | h)
    · exact ⟨6, by decide, by decide, h⟩
    · exact ⟨7, by decide, by decide, h⟩
  · rintro ⟨n, h6, h7, h⟩
    obtain rfl | rfl : n = 6 ∨ n = 7 := by omega
    · exact .inl h
    · exact .inr h

/-- The buses of bank 2 and of the downstream keys, under a view, and those of bank 1 (R59, R152). -/
theorem State.busContributes_iff (ahead : Bool) (b : Nat) :
    (8 ≤ b ∧ b ≤ 19 ∧ s.busContributes ahead b ↔
      (b = 8 ∧ s.weightOfBackground ahead .me2 < 1024 ∨ b = 9 ∧ 0 < s.weightOfBackground ahead .me2) ∨
        ∃ n, 3 ≤ n ∧ n ≤ 7 ∧ s.keyHolds n (s.weightOfKey ahead n) b) ∧
    (b ≤ 7 ∧ s.busContributes ahead b ↔
      (b = 0 ∧ s.weightOfBackground ahead .me1 < 1024 ∨ b = 1 ∧ 0 < s.weightOfBackground ahead .me1) ∨
        ∃ n, n ≤ 2 ∧ s.keyHolds n (s.weightOfKey ahead n) b) := by
  refine ⟨⟨?_, ?_⟩, ⟨?_, ?_⟩⟩
  · rintro ⟨h8, -, ⟨m, hm⟩ | ⟨n, h7, hn⟩⟩
    · cases m with
      | me1 => simp only [bankA] at hm; omega
      | me2 => exact .inl hm
    · refine .inr ⟨n, ?_, h7, hn⟩
      by_contra hlow
      have := keyBus_bank1 (n := n) (by omega)
      omega
  · rintro (h | ⟨n, h3, h7, hn⟩)
    · exact ⟨by omega, by omega, .inl ⟨.me2, h⟩⟩
    · have := keyBus_downstream h3 h7
      have := hn.1
      exact ⟨by omega, by omega, .inr ⟨n, h7, hn⟩⟩
  · rintro ⟨hb, ⟨m, hm⟩ | ⟨n, h7, hn⟩⟩
    · cases m with
      | me1 => exact .inl hm
      | me2 => simp only [bankA] at hm; omega
    · refine .inr ⟨n, ?_, hn⟩
      by_contra hhigh
      have := keyBus_downstream (n := n) (by omega) h7
      have := hn.1
      omega
  · rintro (h | ⟨n, h2, hn⟩)
    · exact ⟨by omega, .inl ⟨.me1, h⟩⟩
    · have := keyBus_bank1 h2
      have := hn.1
      exact ⟨by omega, .inr ⟨n, by omega, hn⟩⟩

theorem State.weightOfKey_bank {n : Nat} (h : n ≤ 5) : s.weightOfKey true n = s.aheadFade n := by
  simp [State.weightOfKey, h]

theorem State.weightOfKey_downstream (ahead : Bool) {n : Nat} (h : 6 ≤ n) : s.weightOfKey ahead n = s.keyFade n := by
  rw [State.weightOfKey, if_neg (by omega)]

theorem State.mem_me1Buses (b : Nat) : b ∈ s.me1Buses ↔ b ≤ 7 ∧ s.busContributes false b := by
  rw [(s.busContributes_iff false b).2, State.me1Buses, s.mem_bankBuses (by decide)]
  simp only [Nat.zero_le, true_and, Nat.zero_add]
  rfl

/-- The contributing buses of bank 2 under a view with the downstream keys at their kf (R155, R156). -/
theorem State.mem_bank2_downstream (ahead : Bool) {kf : Nat → Nat} (hkf : ∀ n, n ≤ 5 → kf n = s.weightOfKey ahead n)
    (b : Nat) :
    b ∈ s.bankBuses 8 (s.weightOfBackground ahead .me2) 3 kf ++ s.downstreamBuses ↔
      8 ≤ b ∧ b ≤ 19 ∧ s.busContributes ahead b := by
  rw [(s.busContributes_iff ahead b).1, List.mem_append, s.mem_bankBuses (by decide), s.mem_downstreamBuses, or_assoc]
  refine or_congr_right ⟨?_, ?_⟩
  · rintro (⟨n, h3, h5, h⟩ | ⟨n, h6, h7, h⟩)
    · exact ⟨n, h3, by omega, hkf n h5 ▸ h⟩
    · exact ⟨n, by omega, h7, (s.weightOfKey_downstream ahead h6).symm ▸ h⟩
  · rintro ⟨n, h3, h7, h⟩
    by_cases h5 : n ≤ 5
    · exact .inl ⟨n, h3, h5, (hkf n h5).symm ▸ h⟩
    · exact .inr ⟨n, by omega, h7, s.weightOfKey_downstream ahead (show 6 ≤ n by omega) ▸ h⟩

/-! ### The tally sets (R72, R153 to R156) -/

theorem State.heldOn_iff (buses : List Nat) (n : Nat) : s.heldOn buses n = true ↔ ∃ b ∈ buses, s.bus b = n := by
  simp [State.heldOn]

/-- Membership of a tally set, where the list holds the contributing buses of its view (R153, R154). -/
theorem State.contributes_iff (ahead : Bool) {buses : List Nat}
    (hb : ∀ b, b ∈ buses ↔ 8 ≤ b ∧ b ≤ 19 ∧ s.busContributes ahead b) (n : Nat) :
    s.contributes buses n = true ↔ s.inTally ahead n := by
  have hheld : ∀ k, s.heldOn buses k = true ↔ s.heldDownstream ahead k := fun k => by
    rw [s.heldOn_iff]
    simp only [hb, State.heldDownstream, and_assoc]
  have hme1 : s.heldOn s.me1Buses n = true ↔ ∃ b, b ≤ 7 ∧ s.busContributes false b ∧ s.bus b = n := by
    rw [s.heldOn_iff]
    simp only [s.mem_me1Buses, and_assoc]
  simp only [State.contributes, State.tallied, State.inTally, Bool.and_eq_true, Bool.or_eq_true, Bool.not_eq_true',
    bne_iff_ne, hheld, hme1]
  tauto

theorem State.previewTally_iff {n : Nat} (h : n ≤ 30) :
    look s.previewTally n false = true ↔ s.inTally true n := by
  rw [State.previewTally, look_sourceSet _ h]
  exact s.contributes_iff true (s.mem_bank2_downstream true fun _ h5 => (s.weightOfKey_bank h5).symm) n

theorem State.programTally_iff (hb : s.matrix.bypass = none) {n : Nat} (h : n ≤ 30) :
    look s.programTally n false = true ↔ s.inTally false n := by
  rw [State.programTally, hb]
  dsimp only
  rw [look_sourceSet _ h]
  exact s.contributes_iff false (s.mem_bank2_downstream false fun _ _ => rfl) n

/-- Under bypass the program set is the bypass source alone (R72). -/
theorem State.programTally_bypass {b : Nat} (hb : s.matrix.bypass = some b) {n : Nat} (h : n ≤ 30) :
    look s.programTally n false = true ↔
      n = b ∧ n ≠ 30 ∧ (s.source n).enabled = true ∧ (s.source n).exempt = false := by
  rw [State.programTally, hb]
  dsimp only
  rw [look_sourceSet _ h]
  simp only [State.tallied, Bool.and_eq_true, Bool.not_eq_true', bne_iff_ne, beq_iff_eq]
  tauto

end

/-! ### The STATUS items (R106, R174) -/

theorem Engine.report_items (x : Engine) :
    x.report.state = x.state ∧ x.report.j = x.j ∧ (x.state = .idle → x.report.rate = 0) ∧
      (∀ run, x.state ≠ .idle → x.run = some run → x.report.rate = run.settings.rate) ∧
      (∀ value, x.force = some value → x.report.shown = value ∧ x.report.forced = true) ∧
      (x.force = none → x.report.shown = x.q ∧ x.report.forced = false) := by
  refine ⟨rfl, rfl, fun h => ?_, fun run h hr => ?_, fun value h => ?_, fun h => ?_⟩
  · simp [Engine.report, h]
  · cases hs : x.state with
    | idle => exact absurd hs h
    | _ => simp [Engine.report, hs, hr]
  · simp [Engine.report, Engine.shown, h]
  · simp [Engine.report, Engine.shown, h]

theorem State.statusView_engine (s : State) (e : EngineId) :
    s.statusView.engines[e.code]? = some (s.engine e).report := by cases e <;> rfl

theorem State.statusView_onAir (s : State) {n : Nat} (h : n ≤ 7) :
    s.statusView.onAir[n]? = some (s.keyer n).onAir := by
  have h8 : n < 8 := by omega
  rw [State.keyer, look_of_lt _ h8]
  simp [State.statusView, h8]

/-- The tally sets and the STATUS items are formed from the state that the field start leaves (R155, R174). -/
theorem State.startField_formed (s : State) :
    s.startField.status = s.startField.statusView ∧
      s.startField.tally = ⟨s.startField.programTally, s.startField.previewTally⟩ := by
  rw [State.startField]
  generalize State.takePicture _ = w
  exact ⟨rfl, rfl⟩

/-- Settles O47: tally sets and STATUS items by the state that the field start leaves. -/
theorem fieldStartFormsTallyAndStatus : Obligations.FieldStartFormsTallyAndStatus := by
  intro i s hi
  obtain ⟨u, hexec, -, hcounter, -, -⟩ := State.startsField_exec i s hi
  have hfield : u.startField.timing.field = s.timing.counter := u.startField_numbers.1.trans hcounter
  obtain ⟨hstatus, htally⟩ := u.startField_formed
  refine ⟨u.startField, hexec, hstatus, ?_⟩
  generalize u.startField = t at *
  rw [hstatus, htally]
  refine ⟨hfield, rfl, rfl, rfl, rfl, rfl, rfl, rfl, rfl, rfl, ?_, ?_, fun n h => t.statusView_onAir h, rfl, rfl, rfl, rfl,
    rfl, rfl, rfl, fun n h => t.previewTally_iff h, fun hb n h => t.programTally_iff hb h,
    fun b hb n h => t.programTally_bypass hb h⟩
  · rintro e x rfl
    exact ⟨_, t.statusView_engine e, (t.engine e).report_items⟩
  · simp [State.statusView]

end Sys2Proof.Machine
end

section
/-!
RESULTS. The outputs (R63 to R65, R133 to R151, R173, R182, R185): sources, banks, look-ahead, the lines that carry
them.
-/

namespace Sys2Proof.Machine

open Sys2Proof

/-! ### Lines (R182, R185) -/

theorem foldl_words (words : List LinkWord) (a : Nat) :
    words.foldl (fun a w => a + w.toNat) a = a + (words.map BitVec.toNat).sum := by
  induction words generalizing a with
  | nil => rfl
  | cons w words ih => rw [List.foldl_cons, ih, List.map_cons, List.sum_cons, Nat.add_assoc]

/-- The check word: the sum modulo 512, and bit 9 the inverse of bit 8 (R185). -/
theorem checkWord_spec (words : List LinkWord) :
    (checkWord words).toNat % 512 = (words.map BitVec.toNat).sum % 512 ∧
      (checkWord words).getLsbD 9 = !(checkWord words).getLsbD 8 := by
  have hsum : ((words.map BitVec.toNat).sum % 512) < 512 := Nat.mod_lt _ (by decide)
  rw [checkWord, foldl_words, Nat.zero_add]
  generalize (words.map BitVec.toNat).sum % 512 = x at *
  have hvalue : ∀ y : Nat, y < 1024 → (BitVec.ofNat 10 y).toNat = y := fun y hy => by
    rw [BitVec.toNat_ofNat]; omega
  simp only [BitVec.getLsbD, Nat.testBit_eq_decide_div_mod_eq]
  split
  · rw [hvalue _ (by omega)]
    refine ⟨by omega, ?_⟩
    rw [decide_eq_true (by omega), decide_eq_false (by omega)]; rfl
  · rw [hvalue _ (by omega)]
    refine ⟨by omega, ?_⟩
    rw [decide_eq_false (by omega), decide_eq_true (by omega)]; rfl

section
variable (s : State)

theorem State.outputSample_before (h : s.timing.started = false) (o : OutputLane) : s.outputSample o = blackPicture := by
  rw [State.outputSample, if_neg (by simp [h])]

theorem State.outputSample_started (h : s.timing.started = true) (o : OutputLane) :
    s.outputSample o = s.asShown.outputPicture o := by
  rw [State.outputSample, if_pos h]

theorem State.lineSample_active (o : OutputLane) {line : Nat}
    (h : s.timing.started = false ∨ line < activeLines s.timing.format) (place : Nat) :
    s.lineSample o line place = (s.outputSample o line place).value := by
  rw [State.lineSample, if_pos h]

/-- The Y places of MON's blanking lines carry the words of the packets one after another (R173, log 23). -/
theorem State.lineSample_blanking (h : s.timing.started = true) (line x : Nat) :
    s.lineSample .mon (activeLines s.timing.format + line) (2 * x + 1) =
      s.blankingWord (line * width s.timing.format + x) := by
  have hblank : ¬(s.timing.started = false ∨ activeLines s.timing.format + line < activeLines s.timing.format) := by
    simp [h]
  rw [State.lineSample, if_neg hblank, if_pos ⟨rfl, by omega⟩, Nat.add_sub_cancel_left,
    show (2 * x + 1) / 2 = x by omega]

/-! ### Sources (R63, R65) -/

theorem State.sourcePicture_steps (me1 me2 : Picture) (n line place : Nat) :
    s.sourcePicture me1 me2 n line place =
      if (s.source n).enabled = false then .of (Colour.at ⟨64, 512, 512⟩ place)
      else if (s.source n).legalise = false then s.rawPicture me1 me2 n line place
      else if place % 2 = 1 then
        { s.rawPicture me1 me2 n line place with
          value := min (max (s.rawPicture me1 me2 n line place).value 64) 940 }
      else
        { s.rawPicture me1 me2 n line place with
          value := min (max (s.rawPicture me1 me2 n line place).value 64) 960 } := by
  unfold State.sourcePicture
  dsimp only
  cases (s.source n).enabled
  · rfl
  · cases (s.source n).legalise
    · rfl
    · by_cases hp : place % 2 = 1 <;> simp [legalise, clamp, hp]

theorem State.rawPicture_lane (me1 me2 : Picture) {n : Nat} (h1 : 1 ≤ n) (h24 : n ≤ 24) (line place : Nat) :
    s.rawPicture me1 me2 n line place = s.lanePicture n line place := by
  rw [State.rawPicture, if_neg (by omega), if_pos h24]

/-! ### Layers (R121, R133, R137 to R139) -/

theorem State.layKey_keyBus (bus : Nat → Picture) {n : Nat} (h : n ≤ 7) (kf : Nat) (under : Picture) :
    s.layKey bus n kf under = s.keyOver n kf (bus (keyBus n)) (bus (keyBus n + 1)) under := by
  rw [State.layKey, fillBus_eq_keyBus h]

/-- A keyer at fade coefficient 0 leaves the picture beneath it (R130, R131). -/
theorem State.layKey_off (bus : Nat → Picture) (n : Nat) (under : Picture) : s.layKey bus n 0 under = under := by
  funext line place
  have hzero : ∀ (k : KeySettings) (c : Curve) (luma m : Nat), keyChain k c luma m 0 = 0 := fun k c luma m => by
    simp [keyChain, scaleKey]
  simp only [State.layKey, State.keyOver, hzero, Sample.mix_zero]

/-- The fade to black by its engine (R138). -/
theorem State.ftbFade_running {r : RunRecord} (hs : (s.engine .ftb).state ≠ .idle)
    (hr : (s.engine .ftb).run = some r) :
    (r.elements.fade = some .toBlack → s.ftbFade = (s.engine .ftb).shown) ∧
      (r.elements.fade = some .fromBlack → s.ftbFade = 1024 - (s.engine .ftb).shown) := by
  rw [State.ftbFade, State.drive_of_running hs hr]
  dsimp only
  exact ⟨fun h => by rw [h], fun h => by rw [h]⟩

theorem State.ftbFade_idle (hs : (s.engine .ftb).state = .idle) :
    (∀ value, (s.engine .ftb).force = some value →
      s.ftbFade = if s.ftb = .clear then value else 1024 - value) ∧
    ((s.engine .ftb).force = none → s.ftbFade = if s.ftb = .clear then 0 else 1024) := by
  refine ⟨fun value h => ?_, fun h => ?_⟩
  · rw [State.ftbFade, State.drive_of_idle hs, h]
    simp only [Option.isSome_some, if_true, State.nextElements, Engine.shown, h, Option.getD_some]
    cases s.ftb <;> rfl
  · rw [State.ftbFade, State.drive_of_idle hs, h]
    cases s.ftb <;> rfl

/-! ### Look-ahead (R147, R148) -/

theorem State.lookAhead_eq {e : EngineId} {view : Elements}
    (h : (s.engine e).state = .idle ∧ view = s.nextElements e ∨
      ∃ r, (s.engine e).state ≠ .idle ∧ (s.engine e).run = some r ∧ view = r.elements) :
    s.lookAhead e = view := by
  rw [State.lookAhead]
  rcases h with ⟨hs, rfl⟩ | ⟨r, hs, hr, rfl⟩
  · rw [hs]
  · rw [hr]
    cases hst : (s.engine e).state with
    | idle => exact absurd hst hs
    | _ => rfl

theorem State.aheadFade_spec {n : Nat} {view : Elements} (h : s.lookAhead (keyerEngine n) = view)
    (hd : (view.keys.map Prod.fst).Nodup) :
    ((n, .on) ∈ view.keys → s.aheadFade n = 1024) ∧ ((n, .off) ∈ view.keys → s.aheadFade n = 0) ∧
      (n ∉ view.keys.map Prod.fst → s.aheadFade n = if (s.keyer n).onAir then 1024 else 0) := by
  refine ⟨fun hn => ?_, fun hn => ?_, fun hn => ?_⟩
  · rw [State.aheadFade, h, Elements.direction_of_mem hd hn]
  · rw [State.aheadFade, h, Elements.direction_of_mem hd hn]
  · rw [State.aheadFade, h, Elements.direction_of_not_mem hn]; rfl

end

/-- Settles O53: lines, sources, look-ahead and the layers of the outputs, part by part. -/
theorem outputsCarryTheirPictures : Obligations.OutputsCarryTheirPictures := by
  refine ⟨fun s o line place h => ?_, fun i s hi => ?_, fun i tag c s hi hc => ?_, fun s o line place h => ?_,
    fun s line x n h hx hn => ?_, fun s o line words check h => ?_, fun s me1 me2 n line place x hx => ?_,
    fun s n e view hn he hv => ?_, fun s bus bus1 lay lay1 f fade hbus1 hbus hlay hf hfade => ?_⟩
  · have hb := s.outputSample_before h o
    refine ⟨by rw [hb]; rfl, ?_⟩
    rw [s.lineSample_active o (.inl h), hb]; rfl
  · obtain ⟨u, hexec, -⟩ := State.startsField_exec i s hi
    exact ⟨_, hexec, u.startField_numbers.2.2.1, u.asShown_startField⟩
  · exact ⟨_, exec_of_command hi s, s.command_outputSample tag c hc⟩
  · exact ⟨s.outputSample_started h o, fun hl => s.lineSample_active o (.inr hl) place⟩
  · rw [s.lineSample_blanking h, ← hn]
    refine ⟨fun w hw => by rw [State.blankingWord, hw]; rfl, fun hl => ?_⟩
    rw [State.blankingWord, List.getElem?_eq_none hl]; rfl
  · cases h
    refine ⟨by rw [List.length_map, List.length_range]; rfl, fun k hk => ?_, checkWord_spec _⟩
    rw [List.getElem?_map, List.getElem?_range (by exact hk)]; rfl
  · refine ⟨hx ▸ s.sourcePicture_steps me1 me2 n line place, ?_, fun h1 h24 hs => ?_, ?_, ?_, ?_, ?_⟩
    · rintro rfl; exact hx
    · rw [hx, s.rawPicture_lane me1 me2 h1 h24]
      have h := s.lanePicture_delivers (n := n) (by simp [isLane]; omega) line place
      rwa [← hs] at h
    all_goals rintro rfl; exact hx
  · have hk : keyerEngine n = e := by rw [he, keyerEngine]; simp [hn]
    have hl := s.lookAhead_eq hv
    exact ⟨hl, s.aheadFade_spec (hk ▸ hl)⟩
  · obtain rfl : bus = s.me2Bus := funext hbus
    obtain rfl : bus1 = s.me1Bus := funext hbus1
    obtain rfl : fade = s.fadeToBlack := by
      funext p line place
      rw [hfade, hf]; rfl
    have hlays : ∀ kf n under, n ≤ 7 → lay kf n under = s.layKey s.me2Bus n (kf n) under ∧
        lay1 kf n under = s.layKey s.me1Bus n (kf n) under := fun kf n under hn => by
      rw [s.layKey_keyBus _ hn, s.layKey_keyBus _ hn]
      exact hlay kf n under
    have h2 : ∀ kf n under, n ≤ 7 → lay kf n under = s.layKey s.me2Bus n (kf n) under := fun kf n under hn =>
      (hlays kf n under hn).1
    have h1 : ∀ kf n under, n ≤ 7 → lay1 kf n under = s.layKey s.me1Bus n (kf n) under := fun kf n under hn =>
      (hlays kf n under hn).2
    subst hf
    rw [h1 _ 2 _ (by decide), h1 _ 1 _ (by decide), h1 _ 0 _ (by decide), h1 _ 2 _ (by decide), h1 _ 1 _ (by decide),
      h1 _ 0 _ (by decide)]
    rw [h2 _ 5 _ (by decide), h2 _ 4 _ (by decide), h2 _ 3 _ (by decide), h2 _ 5 _ (by decide), h2 _ 4 _ (by decide),
      h2 _ 3 _ (by decide)]
    simp only [h2 _ 7 _ (show 7 ≤ 7 by decide), h2 _ 6 _ (show 6 ≤ 7 by decide)]
    refine ⟨rfl, rfl, ⟨fun r hs hr shown hshown => ?_, s.ftbFade_idle⟩, fun n hn => ?_, fun hn => ?_, fun h => ?_,
      fun h => ?_, fun h6 h7 => ?_, rfl, rfl, rfl, rfl, rfl, rfl, rfl⟩
    · rw [hshown]
      exact s.ftbFade_running hs hr
    · simp only [State.pgm, State.clean, State.underBypass, hn, and_self]
    · have hplain : ∀ p, s.underBypass p = p := fun p => by rw [State.underBypass, hn]
      exact ⟨hplain _, hplain _⟩
    · funext line place
      rw [State.fadeToBlack, h, Sample.mix_full]
    · funext line place
      rw [State.fadeToBlack, h, Sample.mix_zero]
    · rw [State.pgm, State.clean, State.layDownstream, h6, h7, s.layKey_off, s.layKey_off]

end Sys2Proof.Machine
end
